-- ==== Sys2Proof/Word.lean ====
section
/-! DEFINITION. The word types of HTE16: the lane, the vector and the command word (R1, R2, R80). -/

namespace Sys2Proof

/-- An 8-bit value: a command word (R80), or one byte of a serialized port (R62). -/
abbrev Byte := BitVec 8

/-- One 16-bit lane: a binary16 pattern or a signed 16-bit integer (R3). -/
abbrev Half := BitVec 16

/-- A 128-bit vector: the value of one of the ports A, B, Y, N (R2, R50). -/
abbrev Vec := BitVec 128

/-- A lane index, 0 to 7 (R2). -/
abbrev Lane := Fin 8

end Sys2Proof
end

