-- ==== Sys2Proof/Machine/Lanes.lean ====
section
/-! DEFINITION. Lanes of a 128-bit vector (R2), the two views of a lane (R3), and a port's bytes (R62). -/

namespace Sys2Proof.Machine

/-- Lane `i` of a vector: bits 16i+15 down to 16i (R2). -/
def lane (v : Vec) (i : Lane) : Half := v.extractLsb' (16 * i.val) 16

/-- The vector with the given lanes, lane 0 the least significant (R2). -/
def ofLanes (f : Lane → Half) : Vec :=
  f 7 ++ f 6 ++ f 5 ++ f 4 ++ f 3 ++ f 2 ++ f 1 ++ f 0

/-- The vector whose every lane is `h`. -/
def broadcast (h : Half) : Vec := ofLanes fun _ => h

/-- The signed view of a lane pattern (R3). -/
def asS16 (u : Half) : Int := u.toInt

/-- The lane pattern of an integer, modulo 2^16 (R3). -/
def asU16 (s : Int) : Half := BitVec.ofInt 16 s

/-- Byte `j` of a serialized port: bits 8j+7 down to 8j (R62). -/
def portByte (v : Vec) (j : Fin 16) : Byte := v.extractLsb' (8 * j.val) 8

/-- A port as 16 bytes, at increasing addresses (R62). -/
def toBytes (v : Vec) : Vector Byte 16 := Vector.ofFn (portByte v)

/-- The port value the host loads from 16 bytes (R62): lane i is bytes 2i (low) and 2i+1 (high). -/
def ofBytes (bs : Vector Byte 16) : Vec :=
  ofLanes fun i => bs.get ⟨2 * i.val + 1, by omega⟩ ++ bs.get ⟨2 * i.val, by omega⟩

end Sys2Proof.Machine
end

