-- ==== Sys2Proof/Machine/Binary16.lean ====
section
/-! DEFINITION. binary16: fields and classes of a pattern (R5), rounding (R6), the default NaN (R7), FMUL (R8), FMA (R9),
FNEG and FABS (R10) and the conversions (R13, R14). -/

namespace Sys2Proof.Machine

/-- S = h[15] (R5). -/
def signOf (h : Half) : Bool := h.getLsbD 15

/-- E = h[14:10] (R5). -/
def expOf (h : Half) : Nat := (h.extractLsb' 10 5).toNat

/-- M = h[9:0] (R5). -/
def manOf (h : Half) : Nat := (h.extractLsb' 0 10).toNat

/-- The class of a pattern (R5). -/
inductive HalfClass where
  | zero
  | subnormal
  | normal
  | infinity
  | nan
deriving DecidableEq, Repr

/-- The table of R5. -/
def classOf (h : Half) : HalfClass :=
  if expOf h = 0 then (if manOf h = 0 then .zero else .subnormal)
  else if expOf h = 31 then (if manOf h = 0 then .infinity else .nan)
  else .normal

def isZero (h : Half) : Bool := classOf h == .zero
def isInf (h : Half) : Bool := classOf h == .infinity
def isNaN (h : Half) : Bool := classOf h == .nan
/-- Zero, subnormal or normal: the pattern has a value (R5). -/
def isFinite (h : Half) : Bool := decide (expOf h < 31)
/-- S = 0 and 1 <= E <= 30: the source domain of SPLIT (R143). -/
def isPositiveNormal (h : Half) : Bool := !signOf h && classOf h == .normal

/-- The magnitude of a finite pattern's value as a count of 2^-24 (R5): M, or (1024 + M) * 2^(E - 1). -/
def magUnits (h : Half) : Nat :=
  if expOf h = 0 then manOf h else (1024 + manOf h) * 2 ^ (expOf h - 1)

/-- The value of a finite pattern as a count of 2^-24 (R5). -/
def valueUnits (h : Half) : Int := if signOf h then -(magUnits h : Int) else (magUnits h : Int)

/-- One unit of `valueUnits`: a finite value is `valueUnits h / unitDen`. -/
def unitDen : Nat := 2 ^ 24

/-- `s : m`, a sign bit above a 15-bit magnitude pattern (R1). -/
def withSign (s : Bool) (m : Nat) : Half := (if s then 0x8000#16 else 0#16) ||| BitVec.ofNat 16 m

/-- `num / den` rounded to the nearest integer, ties to the even integer. -/
def roundNearestEven (num den : Nat) : Nat :=
  let q := num / den
  let r := num % den
  if 2 * r < den then q else if den < 2 * r then q + 1 else if q % 2 = 0 then q else q + 1

/-- The 15-bit magnitude pattern that `RoundH` gives for the nonzero magnitude a = num / den (R6). `l` is e + 24 for the
binade 2^e <= a < 2^(e+1), or 0 where a < 2^-24; the quantum is 2^-24 below the normals and 2^(e-10) in them. -/
def roundMagnitude (num den : Nat) : Nat :=
  if 65520 * den ≤ num then 0x7C00
  else
    let units := num * unitDen
    let l := Nat.log2 (units / den)
    if l < 10 then roundNearestEven units den
    else
      let n := roundNearestEven units (den * 2 ^ (l - 10))
      if n = 2048 then (l - 8) * 1024 else (l - 9) * 1024 + (n - 1024)

/-- `RoundH(q, zs)` for the exact number q = num / den (R6). Every q the rules round is such a quotient (DEDUCED, log 10). -/
def roundH (num : Int) (den : Nat) (zs : Bool) : Half :=
  if num = 0 then withSign zs 0 else withSign (decide (num < 0)) (roundMagnitude num.natAbs den)

/-- DEFAULT_NAN (R7). -/
def defaultNaN : Half := 0x7E00#16

/-- `FMUL(a, b)` (R8). -/
def fmul (a b : Half) : Half :=
  let s := signOf a ^^ signOf b
  if isNaN a || isNaN b then defaultNaN
  else if (isInf a && isZero b) || (isZero a && isInf b) then defaultNaN
  else if isInf a || isInf b then withSign s 0x7C00
  else if isZero a || isZero b then withSign s 0
  else roundH (valueUnits a * valueUnits b) (unitDen * unitDen) s

/-- The exact a * b + c of finite patterns, as a count of 2^-48 (R9). -/
def fmaExact (a b c : Half) : Int := valueUnits a * valueUnits b + valueUnits c * unitDen

/-- `FMA(a, b, c)` (R9). -/
def fma (a b c : Half) : Half :=
  let ps := signOf a ^^ signOf b
  if isNaN a || isNaN b || isNaN c then defaultNaN
  else if (isInf a && isZero b) || (isZero a && isInf b) then defaultNaN
  else if isInf a || isInf b then
    if isInf c && signOf c != ps then defaultNaN else withSign ps 0x7C00
  else if isInf c then c
  else if fmaExact a b c = 0 then
    if (isZero a || isZero b) && isZero c && ps && signOf c then 0x8000#16 else 0x0000#16
  else roundH (fmaExact a b c) (unitDen * unitDen) false

/-- `FNEG(a)`: flips bit 15 of any pattern (R10). -/
def fneg (a : Half) : Half := a ^^^ 0x8000#16

/-- `FABS(a)`: clears bit 15 of any pattern (R10). -/
def fabs (a : Half) : Half := a &&& 0x7FFF#16

/-- `SSAT16(v)`: clamps an integer to [-32768, 32767] (R16). -/
def ssat16 (v : Int) : Int := max (-32768) (min 32767 v)

/-- The integer nearest a finite pattern's value, ties to even (R13). -/
def nearestInt (h : Half) : Int :=
  let n := roundNearestEven (magUnits h) unitDen
  if signOf h then -(n : Int) else (n : Int)

/-- `CVT_F16_TO_S16(a)` (R13). -/
def cvtF16ToS16 (a : Half) : Half :=
  if isNaN a then 0#16
  else if isInf a then (if signOf a then asU16 (-32768) else asU16 32767)
  else asU16 (ssat16 (nearestInt a))

/-- `CVT_S16_TO_F16(i)`: RoundH(i, 0) (R14). -/
def cvtS16ToF16 (i : Half) : Half := roundH (asS16 i) 1 false

end Sys2Proof.Machine
end

