-- ==== Sys2Proof/Machine/Flags.lean ====
section
/-! DEFINITION. The per-lane predicates of HTE16 and the merge select. HTE16 has no flags (R18, R48): a predicate lives
inside one command and is never stored. -/

namespace Sys2Proof.Machine

/-- `EQZ(a)`: true exactly when a[14:0] = 0 (R11). -/
def eqz (a : Half) : Bool := a.extractLsb' 0 15 == 0#15

/-- `LTZ(a)`: S(a) = 1, and a is neither a zero nor a NaN (R11). -/
def ltz (a : Half) : Bool := signOf a && !isZero a && !isNaN a

/-- EXP's underflow guard: asS16(m) < -14 (R184). -/
def belowGuard (m : Half) : Bool := decide (asS16 m < -14)

/-- `SELECT(p, repl, base)` (R12). -/
def select (p : Bool) (repl base : Half) : Half := if p then repl else base

end Sys2Proof.Machine
end

