-- ==== Sys2Proof/Machine/Integer.lean ====
section
/-! DEFINITION. The integer primitives on lane patterns: wrapping (R15) and saturating (R16). -/

namespace Sys2Proof.Machine

/-- `ADD16(a, b)` (R15). -/
def add16 (a b : Half) : Half := asU16 (asS16 a + asS16 b)

/-- `SUB16(a, b)` (R15). -/
def sub16 (a b : Half) : Half := asU16 (asS16 a - asS16 b)

/-- `AND16(a, b)` (R15). -/
def and16 (a b : Half) : Half := a &&& b

/-- `SHL16(a, k)` (R15). -/
def shl16 (a : Half) (k : Nat) : Half := asU16 (asS16 a * 2 ^ k)

/-- `ASR16(a, k)`: the floor of the quotient, an arithmetic shift (R15). -/
def asr16 (a : Half) (k : Nat) : Half := asU16 (Int.fdiv (asS16 a) (2 ^ k))

/-- `QSHL16(a, k)` (R16). -/
def qshl16 (a : Half) (k : Nat) : Half := asU16 (ssat16 (asS16 a * 2 ^ k))

/-- `QADD16(a, b)` (R16). -/
def qadd16 (a b : Half) : Half := asU16 (ssat16 (asS16 a + asS16 b))

end Sys2Proof.Machine
end

