-- ==== Sys2Proof/Syntax.lean ====
section
/-! DEFINITION. The commands of HTE16 (the eight rows of spec/opcode_table.json), the fields of a command word, and what
the host can present. -/

namespace Sys2Proof

/-- The eight commands (R81, R82). A command has no register field and no immediate (R83): its operands are the ports. -/
inductive Instr where
  | recipm   -- RECIPM, R101
  | reciph   -- RECIPH, R102
  | poly     -- POLY, R121
  | polyE    -- POLY.E, R121
  | polyL    -- POLY.L, R121
  | split    -- SPLIT, R141
  | log      -- LOG, R161
  | exp      -- EXP, R181
deriving DecidableEq, Repr

/-- Every command, in the opcode table's order. -/
def Instr.all : List Instr := [.recipm, .reciph, .poly, .polyE, .polyL, .split, .log, .exp]

/-- The three fields of a command word (R80). -/
structure CmdFields where
  op   : BitVec 4   -- CMD[3:0]
  csrc : BitVec 2   -- CMD[5:4]
  rsv  : BitVec 2   -- CMD[7:6]
deriving DecidableEq, Repr

/-- One presentation of the input ports (R41): `none` is a port presented without a whole value (R63). -/
structure Presentation where
  cmd : Option Byte
  a   : Option Vec
  b   : Option Vec
deriving DecidableEq, Repr

/-- No port presented: what the input ports hold after reset (R235; DESIGN CHOICE, log 2). -/
def Presentation.nothing : Presentation := { cmd := none, a := none, b := none }

/-- The two output ports (R42). -/
inductive OutPort where
  | y
  | n
deriving DecidableEq, Repr

/-- What the host can do with a built machine (R235). -/
inductive HostMove where
  | command (p : Presentation)   -- present CMD, A and B
  | read (port : OutPort)        -- read an output port
  | reset                        -- assert reset
deriving DecidableEq, Repr

end Sys2Proof
end

