-- ==== Sys2Proof/WellFormed.lean ====
section
/-! DEFINITION. The static checks: which command-word fields are defined (R80, R82, R84) and which presentations are
whole (R63). -/

namespace Sys2Proof

/-- RSV must be 00 (R80). -/
def CmdFields.rsvClear (f : CmdFields) : Bool := f.rsv == 0#2

/-- OP in 0x6 to 0xF is reserved (R81, R84). -/
def CmdFields.opDefined (f : CmdFields) : Bool := decide (f.op.toNat < 6)

/-- OP 0x2 takes CSRC 00, 01 or 10; every other operation requires CSRC 00 (R80, R82, R84). -/
def CmdFields.csrcDefined (f : CmdFields) : Bool :=
  if f.op == 2#4 then f.csrc != 3#2 else f.csrc == 0#2

/-- The fields form one of the eight defined words (R84). -/
def CmdFields.wf (f : CmdFields) : Bool := f.rsvClear && f.opDefined && f.csrcDefined

/-- Every input port is presented as a whole value (R63). -/
def Presentation.whole (p : Presentation) : Bool := p.cmd.isSome && p.a.isSome && p.b.isSome

end Sys2Proof
end

