-- ==== Sys2Proof/Decode.lean ====
section
/-! DEFINITION. Decoding a command word (R80 to R84), rejecting by name, and the encoder, from the same tables. -/

namespace Sys2Proof

/-- Why a command word is reserved (R84). A word of several kinds is named by one of them: RSV first, then OP, then CSRC
(DESIGN CHOICE, log 12). -/
inductive DecodeReject where
  | reservedBits                -- RSV is not 00
  | reservedOperation           -- OP is in 0x6 to 0xF
  | reservedCoefficientSource   -- CSRC is 11 for OP 0x2, or not 00 for another OP
deriving DecidableEq, Repr

/-- The fields of a command word (R80). -/
def fieldsOf (w : Byte) : CmdFields :=
  { op := w.extractLsb' 0 4, csrc := w.extractLsb' 4 2, rsv := w.extractLsb' 6 2 }

/-- The command word with the given fields (R80). -/
def wordOf (f : CmdFields) : Byte := f.rsv ++ f.csrc ++ f.op

/-- A command that takes no coefficient source: CSRC must be 00 (R80, R84). -/
def plainOp (csrc : BitVec 2) (i : Instr) : Except DecodeReject Instr :=
  if csrc == 0#2 then .ok i else .error .reservedCoefficientSource

/-- The tables of R81 and R82, on the fields; the order in which R84's kinds are looked for is DESIGN CHOICE (log 12). -/
def decodeFields (f : CmdFields) : Except DecodeReject Instr :=
  if f.rsv != 0#2 then .error .reservedBits else
  match f.op.toNat with
  | 0 => plainOp f.csrc .recipm
  | 1 => plainOp f.csrc .reciph
  | 2 =>
    match f.csrc.toNat with
    | 0 => .ok .poly
    | 1 => .ok .polyE
    | 2 => .ok .polyL
    | _ => .error .reservedCoefficientSource
  | 3 => plainOp f.csrc .split
  | 4 => plainOp f.csrc .log
  | 5 => plainOp f.csrc .exp
  | _ => .error .reservedOperation

/-- The command a word selects, or why it is reserved (R80 to R84). -/
def decode (w : Byte) : Except DecodeReject Instr := decodeFields (fieldsOf w)

/-- The fields of each command, from the tables of R81 and R82. -/
def fieldsFor : Instr → CmdFields
  | .recipm => { op := 0x0#4, csrc := 0b00#2, rsv := 0b00#2 }
  | .reciph => { op := 0x1#4, csrc := 0b00#2, rsv := 0b00#2 }
  | .poly   => { op := 0x2#4, csrc := 0b00#2, rsv := 0b00#2 }
  | .polyE  => { op := 0x2#4, csrc := 0b01#2, rsv := 0b00#2 }
  | .polyL  => { op := 0x2#4, csrc := 0b10#2, rsv := 0b00#2 }
  | .split  => { op := 0x3#4, csrc := 0b00#2, rsv := 0b00#2 }
  | .log    => { op := 0x4#4, csrc := 0b00#2, rsv := 0b00#2 }
  | .exp    => { op := 0x5#4, csrc := 0b00#2, rsv := 0b00#2 }

/-- The command word of a command (R80). -/
def encode (i : Instr) : Byte := wordOf (fieldsFor i)

/-- What the decoder reads from the table's bits `w` of an instruction of `nbits` bits: a command word is 8 bits (R80). -/
def decodeTableWord (nbits w : Nat) : Option Instr :=
  if nbits = 8 ∧ w < 256 then (decode (BitVec.ofNat 8 w)).toOption else none

end Sys2Proof
end

