-- ==== Sys2Proof/Machine/Rom.lean ====
section
/-! DEFINITION. The constant and coefficient ROM (R43, R44, R45): its shape and its contents. -/

namespace Sys2Proof.Machine

/-- The scalar constants of R43, each broadcast to every lane. -/
structure ConstRom where
  k1     : Half   -- the reciprocal's initial guess
  k2     : Half   -- the reciprocal's initial guess
  two    : Half   -- the Newton-Raphson pass
  ln2    : Half   -- LOG and EXP
  invln2 : Half   -- EXP
  pinf   : Half   -- RECIPM and RECIPH, zero lanes
  ninf   : Half   -- LOG, zero lanes
  pzero  : Half   -- EXP, underflow lanes
deriving DecidableEq, Repr

/-- A coefficient table: 8 binary16 patterns, by position (R44, R45, R61). -/
abbrev CoefTable := Vector Half 8

/-- The patterns of R43. -/
def constRomValues : ConstRom :=
  { k1 := 0x3DA6#16, k2 := 0x3788#16, two := 0x4000#16, ln2 := 0x398C#16, invln2 := 0x3DC5#16,
    pinf := 0x7C00#16, ninf := 0xFC00#16, pzero := 0x0000#16 }

/-- The default of EXP_COEF (R44), a build parameter (PRESUMED, log 4). -/
def expCoefDefault : CoefTable :=
  #v[0x3C00#16, 0x2955#16, 0x3800#16, 0x15C9#16, 0x3C00#16, 0x2045#16, 0x3155#16, 0x0A6A#16]

/-- The default of LOG_COEF (R45), a build parameter (PRESUMED, log 4). -/
def logCoefDefault : CoefTable :=
  #v[0xC097#16, 0xC0F1#16, 0xC5B0#16, 0xB14A#16, 0x452D#16, 0x3AC1#16, 0x4496#16, 0x233C#16]

end Sys2Proof.Machine
end

