-- ==== Sys2Proof/Machine/State.lean ====
section
/-! DEFINITION. The state of one HTE16 instance with its host's pending moves, why a step can stop, and reset. -/

namespace Sys2Proof.Machine

/-- Why the machine faults (R201). -/
inductive Fault where
  /-- The host reads Y or N before the first accepted command after reset (R231, R201): raised by `readOutput` alone.
  Safe: the spec has a model fault here, and no value is returned. -/
  | readBeforeFirstCommand (port : OutPort)
deriving DecidableEq, Repr

/-- Why the machine refuses (R201). -/
inductive Refusal where
  /-- An instruction without a meaning: no arm of this model's exec answers with it. Safe: the machine stops. -/
  | notModelled (mnemonic : String)
  /-- One of the 248 reserved words (R84): raised by `presentCommand`. Safe: the spec has a model refuse it. -/
  | reservedCommand (word : Byte) (why : DecodeReject)
  /-- A port presented without a whole value (R63): raised by `presentCommand` and by every meaning. Safe: the spec
  has a model refuse it. -/
  | portNotWhole
  /-- A command presented after a refusal: the run has ended (R84, R236); raised by `presentCommand`. Safe (log 6). -/
  | runEnded
deriving DecidableEq, Repr

/-- The state of one instance: what R230 lists, the input ports of R41, and the model's own four fields. -/
structure State where
  constRom    : ConstRom                  -- scalar constants (R43)
  expCoef     : CoefTable                 -- EXP_COEF (R44)
  logCoef     : CoefTable                 -- LOG_COEF (R45)
  ports       : Presentation              -- the input ports CMD, A, B as last sampled (R41; DESIGN CHOICE, log 2)
  y           : Option Vec                -- output port Y; none: it holds no value (R42, R231)
  n           : Option Vec                -- output port N; none: it holds no value (R42, R231)
  refusalMark : Bool                      -- set for the rest of a run in which a command was refused (R84, R230)
  faultRecord : Option Fault              -- the first fault since reset (R201, R230; log 6)
  pending     : List HostMove             -- model: the host's moves still to come, oldest first (DESIGN CHOICE, log 1)
  lastRead    : Option (OutPort × Vec)    -- model: what the last read gave the host (R235; DESIGN CHOICE, log 1)
  drawSource  : Nat                       -- model: which source of draws is this instance's (R52; DESIGN CHOICE, log 5)
  drawCount   : Nat                       -- model: the index of the next draw in it (R52; DESIGN CHOICE, log 5)
deriving DecidableEq, Repr

/-- An instance built with the given coefficient tables, right after reset (R230, R235), with its source of draws: two
instances, or two runs whose draws are compared, are built with two sources (DESIGN CHOICE, log 5). -/
def State.build (source : Nat) (expCoef logCoef : CoefTable) : State :=
  { constRom := constRomValues, expCoef := expCoef, logCoef := logCoef,
    ports := Presentation.nothing,
    y := none, n := none, refusalMark := false, faultRecord := none,
    pending := [], lastRead := none, drawSource := source, drawCount := 0 }

/-- The machine right after reset (R230), built with the default tables (R44, R45; PRESUMED, log 4); source 0 of
the draws stands for any (DESIGN CHOICE, log 5). -/
def State.reset : State := State.build 0 expCoefDefault logCoefDefault

end Sys2Proof.Machine
end

