-- ==== Sys2Proof/Machine/Operands.lean ====
section
/-! DEFINITION. Where a command's operands come from (R82, R83): the argument lanes of A and the coefficients. -/

namespace Sys2Proof.Machine

/-- The coefficient sources of R82. -/
inductive CoefSource where
  | portB      -- CSRC 00: the lanes of port B
  | expTable   -- CSRC 01: EXP_COEF
  | logTable   -- CSRC 10: LOG_COEF
deriving DecidableEq, Repr

/-- The coefficients c[0..7] of a source (R82), `b` being the value of port B. -/
def coefficients (s : State) (b : Vec) : CoefSource → Lane → Half
  | .portB, k => lane b k
  | .expTable, k => s.expCoef.get k
  | .logTable, k => s.logCoef.get k

/-- A table as a port value, coefficient k in lane k (R82). -/
def tableAsPort (t : CoefTable) : Vec := ofLanes fun k => t.get k

end Sys2Proof.Machine
end

