-- ==== Sys2Proof/Machine/Ops.lean ====
section
/-! DEFINITION. The named operations over State that commands and host moves are made of. HTE16 takes no exception and
no trap (R200, R204), so no operation enters or leaves one, and it has no memory to read or write (R60). -/

namespace Sys2Proof.Machine

/-- HTE16 samples the presented ports, once (R64); the host's move is used up. -/
def State.sample (s : State) (p : Presentation) : State := { s with ports := p, pending := s.pending.tail }

/-- A completed command writes both output ports, whole (R42, R64). -/
def State.writeOutputs (s : State) (y n : Vec) : State := { s with y := some y, n := some n }

/-- `k` draws are taken (R52). -/
def State.advanceDraws (s : State) (k : Nat) : State := { s with drawCount := s.drawCount + k }

/-- The host's move is used up. -/
def State.dropMove (s : State) : State := { s with pending := s.pending.tail }

/-- Reset: Y and N lose their value, the refusal mark is clear, the fault record is empty, the ROM does not change (R230),
and no sampled port is held across it (R235). R201's 'never cleared' is then of every other move (DEDUCED, log 6). The
host's last read, its later moves and the draws stay as they are: R230 gives none of them a value (DESIGN CHOICE,
logs 1, 5). -/
def State.assertReset (s : State) : State :=
  { s with ports := Presentation.nothing, y := none, n := none, refusalMark := false, faultRecord := none }

/-- A refusal is recorded: the mark is set (R84, R201). -/
def State.markRefused (s : State) : State := { s with refusalMark := true }

/-- A fault is recorded, and a fault recorded before is not cleared by it (R201; that the first one stays: DESIGN CHOICE,
log 6). -/
def State.recordFault (s : State) (f : Fault) : State := { s with faultRecord := some (s.faultRecord.getD f) }

/-- What an output port holds (R231). -/
def State.output (s : State) : OutPort → Option Vec
  | .y => s.y
  | .n => s.n

/-- A read gives the host an output port's value and changes neither port (R235). -/
def State.giveHost (s : State) (port : OutPort) (v : Vec) : State := { s with lastRead := some (port, v) }

/-- A command that is a function of the whole operand ports A and B; a port without a whole value is refused (R63), for
a command that ignores B too (DEDUCED, log 9). -/
def withOperands (s : State) (f : Vec → Vec → State) : Host.Outcome State Fault Refusal :=
  match s.ports.a, s.ports.b with
  | some a, some b => .next (f a b)
  | _, _ => .refused .portNotWhole

/-- A command with one result vector: Y[i] is `f` of A[i], and every lane of N is 0x0000 (R17, R42). -/
def mapLanes (s : State) (f : Vec → Half → Half) : Host.Outcome State Fault Refusal :=
  withOperands s fun a b => s.writeOutputs (ofLanes fun i => f b (lane a i)) (broadcast 0x0000#16)

end Sys2Proof.Machine
end

