-- ==== Sys2Proof/Machine/Polynomial.lean ====
section
/-! DEFINITION. The polynomial evaluator: POLY, POLY.E and POLY.L (R120 to R124). -/

namespace Sys2Proof.Machine

/-- The dataflow of `ESTRIN(x, c)` (R120), over any multiply and multiply-add: `mulAdd a b c` is a * b + c. -/
def estrinWith {α : Type} (mulAdd : α → α → α → α) (mul : α → α → α) (x : α) (c : Lane → α) : α :=
  let p0 := mulAdd (c 4) x (c 0)
  let p1 := mulAdd (c 6) x (c 2)
  let p2 := mulAdd (c 5) x (c 1)
  let p3 := mulAdd (c 7) x (c 3)
  let x2 := mul x x
  let x4 := mul x2 x2
  let lo := mulAdd p1 x2 p0
  let hi := mulAdd p3 x2 p2
  mulAdd hi x4 lo

/-- `ESTRIN(x, c)`: every node one rounded FMA or FMUL (R120). -/
def estrin (x : Half) (c : Lane → Half) : Half := estrinWith fma fmul x c

/-- The evaluator with the coefficients of one source (R121). -/
def evalPoly (s : State) (src : CoefSource) : Host.Outcome State Fault Refusal :=
  mapLanes s fun b x => estrin x (coefficients s b src)

/-- POLY (R121): the coefficients are the lanes of B. -/
def execPoly (s : State) : Host.Outcome State Fault Refusal := evalPoly s .portB

/-- POLY.E (R121): the coefficients are EXP_COEF. -/
def execPolyE (s : State) : Host.Outcome State Fault Refusal := evalPoly s .expTable

/-- POLY.L (R121): the coefficients are LOG_COEF. -/
def execPolyL (s : State) : Host.Outcome State Fault Refusal := evalPoly s .logTable

end Sys2Proof.Machine
end

