-- ==== Sys2Proof/Machine/Exponential.lean ====
section
/-! DEFINITION. The exponential kernel: EXP (R180 to R186). -/

namespace Sys2Proof.Machine

/-- `m`: x * (1/ln2) rounded to binary16, then to the nearest integer (R180, R182). -/
def expQuotient (rom : ConstRom) (x : Half) : Half := cvtF16ToS16 (fmul x rom.invln2)

/-- `val = x - m * ln2`, fused (R180, R182). -/
def expReduced (rom : ConstRom) (x m : Half) : Half := fma (fneg (cvtS16ToF16 m)) rom.ln2 x

/-- `rb`: m << 10 added into the bit pattern, both steps saturating (R180, R183). -/
def expRebuild (poly m : Half) : Half := qadd16 poly (qshl16 m 10)

/-- `EXP_CORE(x)` (R180). -/
def expCore (rom : ConstRom) (coef : Lane → Half) (x : Half) : Half :=
  let m := expQuotient rom x
  let poly := estrin (expReduced rom x m) coef
  select (belowGuard m) rom.pzero (expRebuild poly m)

/-- EXP (R181). -/
def execExp (s : State) : Host.Outcome State Fault Refusal :=
  mapLanes s fun b x => expCore s.constRom (coefficients s b .expTable) x

end Sys2Proof.Machine
end

