-- ==== Sys2Proof/Config.lean ====
section
/-! DEFINITION. What an HTE16 implementation leaves open: the draws of R52 and the parameter LATENCY of R234;
and the identity string. -/

namespace Sys2Proof

/-- The identity string (00_scope section 1, decision D1). -/
def Config.identity : String := "HTE16-cmdset1"

/-- The draws of R52: the value of an output lane outside the source domain, "any 16-bit pattern, under no law". The
arguments are the instance's own source (`State.drawSource`) and a fresh index in it (`State.drawCount`), so that no law
ties the draws of two instances (DESIGN CHOICE, log 5). No body: nothing can be proved of a value of it. -/
opaque Config.draw : Nat → Nat → Half

/-- LATENCY of R234 (decision D22, P1): OPEN, the number of cycles from a command's presentation to its outputs. No rule
depends on it, and no definition of this model does (log 7). -/
opaque Config.latency : Nat

end Sys2Proof
end

