-- ==== Sys2Proof/Machine/Splitter.lean ====
section
/-! DEFINITION. The mantissa/exponent splitter: SPLIT (R140 to R143). -/

namespace Sys2Proof.Machine

/-- The record of R140: mantissa `r`, a binary16 pattern, and exponent `n`, a signed 16-bit pattern. -/
structure SplitResult where
  r : Half
  n : Half
deriving DecidableEq, Repr

/-- `SPLIT_CORE(x)` (R140): the datapath value, on every pattern. -/
def splitCore (x : Half) : SplitResult :=
  let n := sub16 (asr16 x 10) 15#16
  { r := sub16 x (shl16 n 10), n := n }

/-- The source domain of SPLIT (R143). -/
def splitInDomain (x : Half) : Bool := isPositiveNormal x

/-- What lane `i` of SPLIT shows: the datapath values in the source domain, two draws outside it (R52, R143). `src` is the
instance's source of draws and `d` the index of the command's first draw; lane i has the indices d + 2i and d + 2i + 1
(DESIGN CHOICE, log 5). -/
def splitLane (src d : Nat) (i : Lane) (x : Half) : SplitResult :=
  if splitInDomain x then splitCore x
  else { r := Config.draw src (d + 2 * i.val), n := Config.draw src (d + 2 * i.val + 1) }

/-- SPLIT (R141): Y[i] is r and N[i] is n. -/
def execSplit (s : State) : Host.Outcome State Fault Refusal :=
  withOperands s fun a _ =>
    (s.writeOutputs (ofLanes fun i => (splitLane s.drawSource s.drawCount i (lane a i)).r)
      (ofLanes fun i => (splitLane s.drawSource s.drawCount i (lane a i)).n)).advanceDraws 16

end Sys2Proof.Machine
end

