-- ==== Sys2Proof/Machine/Logarithm.lean ====
section
/-! DEFINITION. The logarithm kernel: LOG (R160 to R166). -/

namespace Sys2Proof.Machine

/-- The reconstruction n * ln2 + p, fused (R160). -/
def logReconstruct (rom : ConstRom) (n p : Half) : Half := fma (cvtS16ToF16 n) rom.ln2 p

/-- `LOG_CORE(x)` (R160): the datapath value, on every pattern. -/
def logCore (rom : ConstRom) (coef : Lane → Half) (x : Half) : Half :=
  let rn := splitCore x
  let p := estrin rn.r coef
  select (eqz x) rom.ninf (logReconstruct rom rn.n p)

/-- The source domain of LOG: the positive normals and the two zeros (R163). -/
def logInDomain (x : Half) : Bool := isPositiveNormal x || isZero x

/-- What lane `i` of LOG shows: the datapath value in the source domain, a draw outside it (R52, R163). `src` is the
instance's source of draws and `d` the index of the command's first draw; lane i has the index d + i (DESIGN CHOICE, log 5). -/
def logLane (rom : ConstRom) (coef : Lane → Half) (src d : Nat) (i : Lane) (x : Half) : Half :=
  if logInDomain x then logCore rom coef x else Config.draw src (d + i.val)

/-- LOG (R161). -/
def execLog (s : State) : Host.Outcome State Fault Refusal :=
  withOperands s fun a b =>
    (s.writeOutputs
      (ofLanes fun i => logLane s.constRom (coefficients s b .logTable) s.drawSource s.drawCount i (lane a i))
      (broadcast 0x0000#16)).advanceDraws 8

end Sys2Proof.Machine
end

