-- ==== Sys2Proof/Machine/Reciprocal.lean ====
section
/-! DEFINITION. The reciprocal engine: RECIPM and RECIPH (R100 to R107). -/

namespace Sys2Proof.Machine

/-- `m = SUB16(0x3C00, AND16(ax, 0x7C00))` (R100, step 2). -/
def recipBias (ax : Half) : Half := sub16 0x3C00#16 (and16 ax 0x7C00#16)

/-- The initial guess: step 2 of R100, from `ax`. -/
def recipGuess (rom : ConstRom) (ax : Half) : Half :=
  let m := recipBias ax
  add16 (fma (fneg rom.k2) (add16 ax m) rom.k1) m

/-- One Newton-Raphson pass: r = TWO - y * ax fused, then y * r (R100, step 3). -/
def nrPass (rom : ConstRom) (ax y : Half) : Half := fmul y (fma (fneg y) ax rom.two)

/-- `k` Newton-Raphson passes (R100, step 3). -/
def nrPasses (rom : ConstRom) (ax : Half) : Nat → Half → Half
  | 0, y => y
  | k + 1, y => nrPasses rom ax k (nrPass rom ax y)

/-- `RECIP_CORE(x, k)` (R100). -/
def recipCore (rom : ConstRom) (x : Half) (k : Nat) : Half :=
  let ax := fabs x
  let y := nrPasses rom ax k (recipGuess rom ax)
  let y := select (eqz x) rom.pinf y
  select (ltz x) (fneg y) y

/-- NR_MED (00_scope section 3). -/
def nrMed : Nat := 3

/-- NR_HI (00_scope section 3). -/
def nrHi : Nat := 4

/-- RECIPM (R101). -/
def execRecipm (s : State) : Host.Outcome State Fault Refusal :=
  mapLanes s fun _ x => recipCore s.constRom x nrMed

/-- RECIPH (R102). -/
def execReciph (s : State) : Host.Outcome State Fault Refusal :=
  mapLanes s fun _ x => recipCore s.constRom x nrHi

end Sys2Proof.Machine
end

