-- ==== Sys2Proof/Machine/Dispatch.lean ====
section
/-! DEFINITION. One arm per command. -/

namespace Sys2Proof.Machine

def exec (i : Instr) (s : State) : Host.Outcome State Fault Refusal :=
  match i with
  | .recipm => Sys2Proof.Machine.execRecipm s
  | .reciph => Sys2Proof.Machine.execReciph s
  | .poly => Sys2Proof.Machine.execPoly s
  | .polyE => Sys2Proof.Machine.execPolyE s
  | .polyL => Sys2Proof.Machine.execPolyL s
  | .split => Sys2Proof.Machine.execSplit s
  | .log => Sys2Proof.Machine.execLog s
  | .exp => Sys2Proof.Machine.execExp s

end Sys2Proof.Machine
end

