-- ==== Sys2Proof/Machine/HostMoves.lean ====
section
/-! DEFINITION. What each move of the host does (R235): present a command, read an output, assert reset. -/

namespace Sys2Proof.Machine

/-- A command is presented: one atomic transaction (R64). After a refusal the run has ended (R84, R236;
DEDUCED, log 6); a reserved word or a port without a whole value is refused (R63, R84; the order of the checks: DESIGN
CHOICE, log 12); a defined word runs its command on the sampled ports. -/
def presentCommand (s : State) (p : Presentation) : Host.Outcome State Fault Refusal :=
  if s.refusalMark then .refused .runEnded
  else
    match p.cmd with
    | none => .refused .portNotWhole
    | some w =>
      match decode w with
      | .error why => .refused (.reservedCommand w why)
      | .ok i => exec i (s.sample p)

/-- The host reads Y or N: the value of the last accepted command, or a fault before there is one (R231). -/
def readOutput (s : State) (port : OutPort) : Host.Outcome State Fault Refusal :=
  match s.output port with
  | none => .fault (.readBeforeFirstCommand port)
  | some v => .next (s.giveHost port v).dropMove

/-- The host asserts reset (R230). -/
def resetMove (s : State) : Host.Outcome State Fault Refusal := .next s.assertReset.dropMove

/-- One move of the host. -/
def makeMove (s : State) : HostMove → Host.Outcome State Fault Refusal
  | .command p => presentCommand s p
  | .read port => readOutput s port
  | .reset => resetMove s

/-- The next pending move. What the fault record holds hinders none: a command may not fault (R235), only a refusal or
the last command ends a run (R236), and reset empties the record (R230). With no move to make nothing changes: the outputs
hold until the next command (R231; DEDUCED, log 1). -/
def nextMove (s : State) : Host.Outcome State Fault Refusal :=
  match s.pending with
  | [] => .next s
  | m :: _ => makeMove s m

/-- The presentation that stands for loading the command word `w` (DESIGN CHOICE, log 8): A all 1.0, B all zeros (R85). -/
def loadPresentation (w : Nat) : Presentation :=
  { cmd := some (BitVec.ofNat 8 w), a := some (broadcast 0x3C00#16), b := some (broadcast 0x0000#16) }

end Sys2Proof.Machine
end

