-- ==== Sys2Proof/Machine/Step.lean ====
section
/-! DEFINITION. One step of the machine: the host's next move. -/

namespace Sys2Proof.Machine

/-- One step: the oldest pending move of the host, whole (R64, R65). -/
def step (s : State) : Host.Outcome State Fault Refusal := nextMove s

/-- `s` with the command word of bits `w` as the host's next move (DESIGN CHOICE, log 8). A command word is always
8 bits (R80), so `nbits` decides nothing. -/
def State.withFetchWord (s : State) (_nbits w : Nat) : State :=
  { s with pending := .command (loadPresentation w) :: s.pending }

end Sys2Proof.Machine
end

