-- ==== Sys2Proof/Machine/Assembler.lean ====
section
/-! DEFINITION. The assembler syntax of R85 and the host that runs such lines: it holds named vectors (R46), presents one
command a line, and keeps the outputs it names. Text is a list of characters. What R85 leaves open of the text's form is
DESIGN CHOICE (log 11). -/

namespace Sys2Proof.Machine

/-- Text, as its characters. -/
abbrev Text := List Char

/-- One line of R85: `vn` is SPLIT's N destination and `vb` is POLY's coefficient vector, either may be omitted. -/
structure AsmLine where
  instr : Instr
  vd    : Text
  vn    : Option Text
  va    : Text
  vb    : Option Text
deriving DecidableEq, Repr

/-- The mnemonic of a command (R81, R82), in capitals. -/
def mnemonicText : Instr → Text
  | .recipm => ['R', 'E', 'C', 'I', 'P', 'M']
  | .reciph => ['R', 'E', 'C', 'I', 'P', 'H']
  | .poly   => ['P', 'O', 'L', 'Y']
  | .polyE  => ['P', 'O', 'L', 'Y', '.', 'E']
  | .polyL  => ['P', 'O', 'L', 'Y', '.', 'L']
  | .split  => ['S', 'P', 'L', 'I', 'T']
  | .log    => ['L', 'O', 'G']
  | .exp    => ['E', 'X', 'P']

/-- The command of a mnemonic; mnemonics are case-insensitive (R85). -/
def instrOfText (t : Text) : Option Instr :=
  Instr.all.find? fun i => mnemonicText i == t.map Char.toUpper

/-- A line without its comment: text after ';' is a comment (R85). -/
def stripComment (t : Text) : Text := t.takeWhile (· != ';')

def isBlank (c : Char) : Bool := c == ' ' || c == '\t'

/-- Characters into words at blanks; a comma is a word of its own. `w` holds the current word, last character first. -/
def tokensFrom : Text → Text → List Text
  | w, [] => if w.isEmpty then [] else [w.reverse]
  | w, c :: cs =>
    if isBlank c then (if w.isEmpty then [] else [w.reverse]) ++ tokensFrom [] cs
    else if c == ',' then (if w.isEmpty then [] else [w.reverse]) ++ [','] :: tokensFrom [] cs
    else tokensFrom (c :: w) cs

/-- A comma-separated operand list. -/
def operandList : List Text → Option (List Text)
  | [] => some []
  | [v] => if v == [','] then none else some [v]
  | v :: c :: rest =>
    if v != [','] && c == [','] && !rest.isEmpty then (operandList rest).map (v :: ·) else none

/-- The operand forms of R85. -/
def lineOf (i : Instr) (ops : List Text) : Option AsmLine :=
  match i, ops with
  | .poly, [vd, va, vb] => some { instr := .poly, vd := vd, vn := none, va := va, vb := some vb }
  | .split, [vd, vn, va] => some { instr := .split, vd := vd, vn := some vn, va := va, vb := none }
  | i, [vd, va] => some { instr := i, vd := vd, vn := none, va := va, vb := none }
  | _, _ => none

/-- The line a text stands for, or nothing where it is no line of R85. -/
def parseLine (t : Text) : Option AsmLine :=
  match tokensFrom [] (stripComment t) with
  | [] => none
  | m :: ops =>
    match instrOfText m, operandList ops with
    | some i, some vs => lineOf i vs
    | _, _ => none

/-- The vectors a host holds, by name, the latest first (R46, R85). They are not HTE16 state. -/
abbrev HostVectors := List (Text × Vec)

def HostVectors.value (h : HostVectors) (name : Text) : Option Vec := h.lookup name

def HostVectors.store (h : HostVectors) (name : Text) (v : Vec) : HostVectors :=
  (name, v) :: h.filter fun e => e.1 != name

/-- The presentation of a line: A is va, B is vb, and an omitted B is all zeros (R85). A vector the host does not hold
is not a whole value. -/
def AsmLine.presentation (l : AsmLine) (h : HostVectors) : Presentation :=
  { cmd := some (encode l.instr), a := h.value l.va,
    b := match l.vb with | some vb => h.value vb | none => some (broadcast 0x0000#16) }

/-- What the host keeps of a completed line: Y in vd and, where the line names it, N in vn (R85). -/
def AsmLine.keep (l : AsmLine) (s : State) (h : HostVectors) : HostVectors :=
  let h := match s.y with | some y => h.store l.vd y | none => h
  match l.vn, s.n with
  | some vn, some n => h.store vn n
  | _, _ => h

/-- The host runs a program, one command after another (R47, R85): its vectors and the machine at the end. -/
def runProgram : List AsmLine → HostVectors → State → Host.Outcome (HostVectors × State) Fault Refusal
  | [], h, s => .next (h, s)
  | l :: ls, h, s =>
    match step { s with pending := [.command (l.presentation h)] } with
    | .next t => runProgram ls (l.keep t h) t
    | .fault f => .fault f
    | .refused r => .refused r

end Sys2Proof.Machine
end

