-- ==== Sys2Proof/Machine/Run.lean ====
section
/-! DEFINITION. A run with its records: the refusal mark and the fault record of R84, R201 and R230, and the end of a
run (R236). `step` itself has no next state after a refusal or a fault, as R84 and R201 say; here the stop is recorded. -/

namespace Sys2Proof.Machine

/-- The state after one move, its outcome recorded: a refusal sets the mark (R84), a fault is recorded (R201), and
neither writes Y or N (R231). That the refusal of a port that is not whole sets the mark too is DEDUCED (log 6: R201 and
R63 say only 'refused'). Moves that follow a fault are made as any others (R235, R236). -/
def stepRecorded (s : State) : State :=
  match step s with
  | .next t => t
  | .fault f => s.dropMove.recordFault f
  | .refused _ => s.dropMove.markRefused

/-- `k` recorded moves. -/
def runRecorded : Nat → State → State
  | 0, s => s
  | k + 1, s => runRecorded k (stepRecorded s)

/-- The end state of a run (R236): the pair (Y, N), the refusal mark and the fault record. -/
structure RunEnd where
  y           : Option Vec
  n           : Option Vec
  refusalMark : Bool
  faultRecord : Option Fault
deriving DecidableEq, Repr

/-- What R236 reads off a state. -/
def State.runEnd (s : State) : RunEnd :=
  { y := s.y, n := s.n, refusalMark := s.refusalMark, faultRecord := s.faultRecord }

/-- The run of a list of host moves from a state, and its end state (R236). -/
def runMoves (s : State) (ms : List HostMove) : RunEnd :=
  (runRecorded ms.length { s with pending := ms }).runEnd

end Sys2Proof.Machine
end

