-- ==== Sys2Proof/Machine/Instances.lean ====
section
/-! DEFINITION. Several instances, which share nothing but the contents of their ROM (R67, R211): neither a refusal, nor
a fault, nor a draw of one says anything about another. -/

namespace Sys2Proof.Machine

/-- Instances built with the given tables (EXP_COEF, LOG_COEF), numbered from `first`, each with a source of draws of its
own (DESIGN CHOICE, logs 5 and 13). -/
def buildInstances : Nat → List (CoefTable × CoefTable) → List State
  | _, [] => []
  | first, (e, l) :: rest => State.build first e l :: buildInstances (first + 1) rest

/-- Each instance draws from a source of its own (R52, R67; log 5). -/
def drawsApart (fleet : List State) : Prop := (fleet.map State.drawSource).Nodup

/-- One move of instance `k` of several, its outcome recorded in that instance (`stepRecorded`): a refusal or a fault of
one instance is its own, and the others can go on. The spec is silent on what such a step gives, and where there is no
instance `k` nothing happens (DESIGN CHOICE, log 13). -/
def stepInstance (k : Nat) (fleet : List State) : List State := fleet.modify k stepRecorded

end Sys2Proof.Machine
end

