-- ==== Sys2Proof/Safety.lean ====
section
/-! DEFINITION. What claims about a run use: the launch premises of R237 (`nothing_in_flight` needs none: a step is a whole
command), the invariant of the machine, and what it means
for two machines to agree on what a command reads. -/

namespace Sys2Proof.Machine

/-- `no_fault` of R237: the fault record is empty. -/
def State.noFault (s : State) : Prop := s.faultRecord = none

/-- `not_refused` of R237: the refusal mark is clear. -/
def State.notRefused (s : State) : Prop := s.refusalMark = false

/-- `tables_fixed` of R237, with the scalar constants: `t` holds the same ROM as `s`. -/
def State.sameRom (s t : State) : Prop :=
  t.constRom = s.constRom ∧ t.expCoef = s.expCoef ∧ t.logCoef = s.logCoef

/-- The scalar ROM holds the constants of R43. -/
def State.romAsBuilt (s : State) : Prop := s.constRom = constRomValues

/-- Y and N hold a value together or not at all (R64, R231). -/
def State.outputsPaired (s : State) : Prop := s.y.isSome = s.n.isSome

/-- The state is ready for a command: A and B are whole at the ports (R63). -/
def State.operandsWhole (s : State) (a b : Vec) : Prop := s.ports.a = some a ∧ s.ports.b = some b

/-- The lanes of a command's output that the rules fix: all of them, but for SPLIT outside the positive normals (R143)
and LOG outside the positive normals and zeros (R163), which are draws (R52). `x` is that lane of A. -/
def laneIsFixed : Instr → Half → Bool
  | .recipm, _ => true
  | .reciph, _ => true
  | .poly, _ => true
  | .polyE, _ => true
  | .polyL, _ => true
  | .split, x => splitInDomain x
  | .log, x => logInDomain x
  | .exp, _ => true

/-- Lane `i` of the outputs of two states is the same. -/
def sameOutputLane (t u : State) (i : Lane) : Prop :=
  t.y.map (lane · i) = u.y.map (lane · i) ∧ t.n.map (lane · i) = u.n.map (lane · i)

/-- Y and N hold no value, or the outputs of the command that was sampled last, on the ports it was sampled from (R64,
R231): what that command gives again, on every lane that is no draw. -/
def State.outputsOfLastCommand (s : State) : Prop :=
  s.y = none ∨ ∃ (i : Instr) (a : Vec) (t : State), s.ports.cmd = some (encode i) ∧ s.ports.a = some a ∧
    exec i s = .next t ∧ ∀ k, laneIsFixed i (lane a k) = true → sameOutputLane s t k

/-- The machine's invariant. -/
def State.Inv (s : State) : Prop := s.romAsBuilt ∧ s.outputsPaired ∧ s.outputsOfLastCommand

end Sys2Proof.Machine
end

