-- ==== Sys2Proof/Certificates/Slice0/Obligations.lean ====
section
/-! DEFINITION. The statements about HTE16, from the numbered rules of spec/. -/

open Sys2Proof Sys2Proof.Machine

/-- The four kinds of reserved words, as R84 lists them. -/
def Sys2Proof.Claims.reservedWord (w : Byte) : Prop :=
  w.extractLsb' 6 2 ≠ 0#2 ∨ 6 ≤ (w.extractLsb' 0 4).toNat ∨
  (w.extractLsb' 0 4 = 2#4 ∧ w.extractLsb' 4 2 = 3#2) ∨ (w.extractLsb' 0 4 ≠ 2#4 ∧ w.extractLsb' 4 2 ≠ 0#2)

/-- The eight defined words, as R84 lists them. -/
def Sys2Proof.Claims.definedWords : List Byte :=
  [0x00#8, 0x01#8, 0x02#8, 0x12#8, 0x22#8, 0x03#8, 0x04#8, 0x05#8]

/-- The distance of a finite pattern's value from num / den, as a count of 2^-24 / den. -/
def Sys2Proof.Claims.distance (num : Int) (den : Nat) (h : Half) : Nat :=
  (num * unitDen - valueUnits h * den).natAbs

/-- |y * x - 1| as a count of 2^-48, for finite x and y. -/
def Sys2Proof.Claims.reciprocalError (y x : Half) : Nat := (valueUnits y * valueUnits x - unitDen * unitDen).natAbs

/-- A whole presentation of a defined word. -/
def Sys2Proof.Claims.accepted (p : Presentation) : Prop :=
  ∃ w i, p.cmd = some w ∧ decode w = .ok i ∧ p.whole = true

open Sys2Proof.Claims

/-! ## Encoding -/

/-- R81, R82: every command's word decodes to it, and every word that decodes to a command is its word. -/
def Obligations.DecodeAndEncodeAgree : Prop :=
  (∀ i : Instr, decode (encode i) = .ok i) ∧ ∀ (w : Byte) (i : Instr), decode w = .ok i → encode i = w

/-- Words written out from the table of R81 and R82. -/
def Obligations.WordsOfTheTableDecode : Prop :=
  decode 0b00000000#8 = .ok .recipm ∧ decode 0b00010010#8 = .ok .polyE ∧ decode 0b00100010#8 = .ok .polyL ∧
  decode 0b00000011#8 = .ok .split ∧ decode 0b00000100#8 = .ok .log ∧ decode 0b00000101#8 = .ok .exp

/-- R84: the reserved words are those of its four kinds, all but the eight defined ones. -/
def Obligations.ReservedWordsAreTheFourKinds : Prop :=
  ∀ w : Byte, ((∃ why, decode w = .error why) ↔ reservedWord w) ∧ (reservedWord w ↔ w ∉ definedWords) ∧
    ((fieldsOf w).wf = true ↔ w ∈ definedWords)

/-! ## Commands -/

/-- R101. The next state is the whole state but for Y and N. -/
def Obligations.RecipmWritesThreePassReciprocals : Prop :=
  decode 0x00#8 = .ok .recipm ∧
  (∀ (s : State) (a b : Vec), s.operandsWhole a b → ∃ yv nv, exec .recipm s = .next (s.writeOutputs yv nv) ∧
    ∀ i, lane yv i = recipCore s.constRom (lane a i) 3 ∧ lane nv i = 0x0000#16) ∧
  recipCore constRomValues 0x4200#16 3 = 0x3555#16

/-- R102. The next state is the whole state but for Y and N. -/
def Obligations.ReciphWritesFourPassReciprocals : Prop :=
  decode 0x01#8 = .ok .reciph ∧
  (∀ (s : State) (a b : Vec), s.operandsWhole a b → ∃ yv nv, exec .reciph s = .next (s.writeOutputs yv nv) ∧
    ∀ i, lane yv i = recipCore s.constRom (lane a i) 4 ∧ lane nv i = 0x0000#16) ∧
  recipCore constRomValues 0x63D0#16 4 = 0x1419#16 ∧ recipCore constRomValues 0x63D0#16 3 = 0x1418#16

/-- R121: POLY takes its coefficients from B, POLY.E and POLY.L from their tables. The next state is the whole state but
for Y and N. -/
def Obligations.PolyCommandsEvaluateTheirTables : Prop :=
  (decode 0x02#8 = .ok .poly ∧ decode 0x12#8 = .ok .polyE ∧ decode 0x22#8 = .ok .polyL) ∧
  (∀ (s : State) (a b : Vec), s.operandsWhole a b →
    (∃ yv nv, exec .poly s = .next (s.writeOutputs yv nv) ∧
      ∀ i, lane yv i = estrin (lane a i) (lane b) ∧ lane nv i = 0x0000#16) ∧
    (∃ yv nv, exec .polyE s = .next (s.writeOutputs yv nv) ∧
      ∀ i, lane yv i = estrin (lane a i) (fun k => s.expCoef.get k) ∧ lane nv i = 0x0000#16) ∧
    (∃ yv nv, exec .polyL s = .next (s.writeOutputs yv nv) ∧
      ∀ i, lane yv i = estrin (lane a i) (fun k => s.logCoef.get k) ∧ lane nv i = 0x0000#16)) ∧
  estrin 0x4000#16 (fun _ => 0x3C00#16) = 0x5BF8#16

/-- R141, R143: SPLIT gives r and n on every positive normal lane, whatever the other lanes hold. The next state is the
whole state but for Y, N and the count of draws. -/
def Obligations.SplitWritesMantissaAndExponent : Prop :=
  decode 0x03#8 = .ok .split ∧
  (∀ (s : State) (a b : Vec), s.operandsWhole a b →
    ∃ yv nv d, exec .split s = .next ((s.writeOutputs yv nv).advanceDraws d) ∧
      ∀ i, splitInDomain (lane a i) = true →
        lane yv i = (splitCore (lane a i)).r ∧ lane nv i = (splitCore (lane a i)).n) ∧
  splitCore 0x4200#16 = { r := 0x3E00#16, n := 0x0001#16 }

/-- R161, R163: LOG gives LOG_CORE on every positive normal or zero lane, and its value at 0x4170 with the default table
of R45 (PRESUMED, log 4). The next state is the whole state but for Y, N
and the count of draws. -/
def Obligations.LogWritesLogarithms : Prop :=
  decode 0x04#8 = .ok .log ∧
  (∀ (s : State) (a b : Vec), s.operandsWhole a b →
    ∃ yv nv d, exec .log s = .next ((s.writeOutputs yv nv).advanceDraws d) ∧
      ∀ i, lane nv i = 0x0000#16 ∧
        (logInDomain (lane a i) = true → lane yv i = logCore s.constRom (fun k => s.logCoef.get k) (lane a i))) ∧
  logCore constRomValues (fun k => logCoefDefault.get k) 0x4170#16 = 0x3C06#16

/-- R181, and its value at 1.0 with the default table of R44 (PRESUMED, log 4). The next state is the whole state but for
Y and N. -/
def Obligations.ExpWritesExponentials : Prop :=
  decode 0x05#8 = .ok .exp ∧
  (∀ (s : State) (a b : Vec), s.operandsWhole a b → ∃ yv nv, exec .exp s = .next (s.writeOutputs yv nv) ∧
    ∀ i, lane yv i = expCore s.constRom (fun k => s.expCoef.get k) (lane a i) ∧ lane nv i = 0x0000#16) ∧
  expCore constRomValues (fun k => expCoefDefault.get k) 0x3C00#16 = 0x416F#16

/-- R52, R143, R163, with the model's numbering of draws (log 5): a SPLIT or LOG lane outside the source domain shows
draws of the instance's own source, each at an index no earlier draw has and no other lane of the command shares. -/
def Obligations.LanesOutsideTheDomainAreFreshDraws : Prop :=
  ∀ (s : State) (a b : Vec), s.operandsWhole a b →
    (∃ (t : State) (yv nv : Vec) (f g : Lane → Nat), exec .split s = .next t ∧ t.y = some yv ∧ t.n = some nv ∧
      Function.Injective f ∧ Function.Injective g ∧ (∀ i j, f i ≠ g j) ∧
      (∀ i, s.drawCount ≤ f i ∧ f i < t.drawCount ∧ s.drawCount ≤ g i ∧ g i < t.drawCount) ∧
      ∀ i, splitInDomain (lane a i) = false → lane yv i = Config.draw s.drawSource (f i) ∧
        lane nv i = Config.draw s.drawSource (g i)) ∧
    (∃ (t : State) (yv : Vec) (f : Lane → Nat), exec .log s = .next t ∧ t.y = some yv ∧ Function.Injective f ∧
      (∀ i, s.drawCount ≤ f i ∧ f i < t.drawCount) ∧
      ∀ i, logInDomain (lane a i) = false → lane yv i = Config.draw s.drawSource (f i))

/-- R42, R64, R87, R200: every command completes on whole operands, writes both output ports and nothing else of the
hardware. That the count of draws may change, and never falls, is of the model's own numbering (DESIGN CHOICE, log 5). -/
def Obligations.EveryCommandCompletesAndWritesOnlyTheOutputs : Prop :=
  ∀ (i : Instr) (s : State) (a b : Vec), s.operandsWhole a b →
    ∃ (t : State) (yv nv : Vec), exec i s = .next t ∧ t = { s with y := some yv, n := some nv, drawCount := t.drawCount } ∧
      s.drawCount ≤ t.drawCount ∧ (i ≠ .split → ∀ j, lane nv j = 0x0000#16)

/-- R17, R40, R83: lane j of both outputs depends only on lane j of A, for POLY on B, and on the ROM: not on another lane,
nor on the rest of the state, which holds everything earlier commands left. A lane that is a draw (R52) depends in
this model besides on the instance's source of draws and the index of the command's draws (DESIGN CHOICE, log 5). -/
def Obligations.LanesAreIndependent : Prop :=
  ∀ (i : Instr) (j : Lane) (s t : State) (a b a' b' : Vec), s.operandsWhole a b → t.operandsWhole a' b' →
    s.sameRom t → lane a j = lane a' j → (i = .poly → b = b') → (laneIsFixed i (lane a j) = true ∨
      (s.drawSource = t.drawSource ∧ s.drawCount = t.drawCount)) →
    ∃ s' t', exec i s = .next s' ∧ exec i t = .next t' ∧ sameOutputLane s' t' j

/-! ## The reciprocal engine -/

/-- R106: sign antisymmetry, and the two kinds of input it leaves out, for both tiers. -/
def Obligations.ReciprocalIsSignAntisymmetric : Prop :=
  ∀ (x : Half) (k : Nat), k = 3 ∨ k = 4 →
    (isZero x = false → isNaN x = false →
      recipCore constRomValues x k = fneg (recipCore constRomValues (fneg x) k)) ∧
    (isZero x = true → recipCore constRomValues x k = 0x7C00#16) ∧
    (isNaN x = true → recipCore constRomValues x k = 0x7E00#16)

/-- R100: the first ADD16 gives 0x3C00 | M(ax) for every input. -/
def Obligations.ReciprocalNormalisesTheMantissa : Prop :=
  ∀ x : Half, add16 (fabs x) (recipBias (fabs x)) = 0x3C00#16 ||| BitVec.ofNat 16 (manOf x) ∧
    asS16 (recipBias (fabs x)) = (15 - (expOf x : Int)) * 1024

/-- R100: for exponent fields 1 to 27 the guess is a normal number within 5.94 % of the reciprocal. -/
def Obligations.ReciprocalGuessIsWithinSixPercent : Prop :=
  ∀ x : Half, signOf x = false → 1 ≤ expOf x → expOf x ≤ 27 →
    classOf (recipGuess constRomValues x) = .normal ∧
    reciprocalError (recipGuess constRomValues x) x * 10000 ≤ 594 * 2 ^ 48

/-- R105, on the binade [1, 2): RECIPM is within 7.101e-4 and RECIPH within 6.64e-4 (R105 prints 7.1e-4; the exact
largest error, at another binade too, is a little above that figure). -/
def Obligations.ReciprocalErrorIsBoundedOnOneBinade : Prop :=
  ∀ x : Half, signOf x = false → expOf x = 15 →
    reciprocalError (recipCore constRomValues x 3) x * 10000000 ≤ 7101 * 2 ^ 48 ∧
    reciprocalError (recipCore constRomValues x 4) x * 1000000 ≤ 664 * 2 ^ 48

/-- R104, the row of E = 30: neither tier gives a finite result. -/
def Obligations.ReciprocalOfHugeInputsIsNotFinite : Prop :=
  ∀ (x : Half) (k : Nat), k = 3 ∨ k = 4 → expOf x = 30 → isFinite (recipCore constRomValues x k) = false

/-! ## The polynomial evaluator -/

/-- R122: in exact arithmetic the evaluator's dataflow is the power series with index k at power pow(k). -/
def Obligations.EstrinIsThePowerSeries : Prop :=
  ∀ (x : ℚ) (c : Lane → ℚ), estrinWith (fun p q r => p * q + r) (· * ·) x c =
    c 0 + c 4 * x + c 2 * x ^ 2 + c 6 * x ^ 3 + c 1 * x ^ 4 + c 5 * x ^ 5 + c 3 * x ^ 6 + c 7 * x ^ 7

/-- R124: a NaN in the argument or in any coefficient gives the default NaN. -/
def Obligations.PolynomialPropagatesNaN : Prop :=
  ∀ (x : Half) (c : Lane → Half), (isNaN x = true ∨ ∃ k, isNaN (c k) = true) → estrin x c = 0x7E00#16

/-- R124: at a zero argument the polynomial is c[0], for finite coefficients and c[0] not a zero. -/
def Obligations.PolynomialAtZeroIsItsConstantTerm : Prop :=
  ∀ (x : Half) (c : Lane → Half), isZero x = true → (∀ k, isFinite (c k) = true) → isZero (c 0) = false →
    estrin x c = c 0

/-- R82: POLY.E and POLY.L give what POLY gives with their table on port B, coefficient k in lane k. -/
def Obligations.PolyWithATableOnBIsTheTableCommand : Prop :=
  ∀ (s : State) (a b : Vec), s.operandsWhole a b →
    ∃ e e' l l', exec .polyE s = .next e ∧ exec .poly { s with ports := { s.ports with b := some (tableAsPort s.expCoef) } } = .next e' ∧
      exec .polyL s = .next l ∧ exec .poly { s with ports := { s.ports with b := some (tableAsPort s.logCoef) } } = .next l' ∧
      e.y = e'.y ∧ e.n = e'.n ∧ l.y = l'.y ∧ l.n = l'.n

/-! ## The splitter -/

/-- R142: the datapath SPLIT_CORE on every input class. (What SPLIT shows outside the positive normals is a draw, R143;
this is about the datapath function, which LOG's zero lanes use too.) -/
def Obligations.SplitCoreByInputClass : Prop :=
  ∀ x : Half,
    asS16 (splitCore x).n = (if signOf x then (expOf x : Int) - 47 else (expOf x : Int) - 15) ∧
    (splitCore x).r = 0x3C00#16 ||| BitVec.ofNat 16 (manOf x) ∧
    (isPositiveNormal x = true →
      -14 ≤ asS16 (splitCore x).n ∧ asS16 (splitCore x).n ≤ 15 ∧
      valueUnits x * 2 ^ 15 = valueUnits (splitCore x).r * 2 ^ (asS16 (splitCore x).n + 15).toNat) ∧
    (isPositiveNormal x = false → isFinite x = true →
      valueUnits x * 2 ^ 47 ≠ valueUnits (splitCore x).r * 2 ^ (asS16 (splitCore x).n + 47).toNat)

/-! ## The logarithm kernel -/

/-- R162: -inf at both zeros, whatever the table; the other lanes of the source domain keep the polynomial path. -/
def Obligations.LogOfZeroIsMinusInfinity : Prop :=
  ∀ (s : State) (a b : Vec), s.romAsBuilt → s.operandsWhole a b →
    ∃ t yv, exec .log s = .next t ∧ t.y = some yv ∧ ∀ i,
      (isZero (lane a i) = true → lane yv i = 0xFC00#16) ∧
      (isPositiveNormal (lane a i) = true → lane yv i =
        logReconstruct s.constRom (splitCore (lane a i)).n
          (estrin (splitCore (lane a i)).r fun k => s.logCoef.get k))

/-- R164: LOG is what a host gets from SPLIT, POLY.L on its Y, and a multiply-add of its own, on every lane of LOG's
source domain (outside it SPLIT and LOG show draws, R52). -/
def Obligations.LogIsSplitThenPolyL : Prop :=
  ∀ (s : State) (a b : Vec), s.romAsBuilt → s.operandsWhole a b →
    ∃ s1 s2 s3 rv nv pv yv, exec .split s = .next s1 ∧ s1.y = some rv ∧ s1.n = some nv ∧
      exec .polyL { s1 with ports := { s1.ports with a := some rv } } = .next s2 ∧ s2.y = some pv ∧
      exec .log s = .next s3 ∧ s3.y = some yv ∧
      ∀ i, logInDomain (lane a i) = true → lane yv i =
        if isZero (lane a i) then 0xFC00#16
        else fma (cvtS16ToF16 (lane nv i)) constRomValues.ln2 (lane pv i)

/-- R160: every exponent SPLIT_CORE can give lies in [-47, 16], and its conversion is exact. -/
def Obligations.LogExponentConvertsExactly : Prop :=
  ∀ x : Half, -47 ≤ asS16 (splitCore x).n ∧ asS16 (splitCore x).n ≤ 16 ∧
    valueUnits (cvtS16ToF16 (splitCore x).n) = asS16 (splitCore x).n * 2 ^ 24

/-! ## The exponential kernel -/

/-- R184: where the guard applies, what it gives, and its two boundary inputs; only that lane is replaced. -/
def Obligations.ExpGuardAppliesExactlyBelow : Prop :=
  (∀ x : Half, belowGuard (expQuotient constRomValues x) = true ↔
    signOf x = true ∧ (isInf x = true ∨ (isFinite x = true ∧ valueUnits x * 10000 ≤ -100625 * 2 ^ 24))) ∧
  (∀ (s : State) (a b : Vec), s.romAsBuilt → s.operandsWhole a b →
    ∃ t yv, exec .exp s = .next t ∧ t.y = some yv ∧ ∀ i,
      (belowGuard (expQuotient constRomValues (lane a i)) = true → lane yv i = 0x0000#16) ∧
      (belowGuard (expQuotient constRomValues (lane a i)) = false → lane yv i =
        expRebuild (estrin (expReduced constRomValues (lane a i) (expQuotient constRomValues (lane a i)))
          fun k => s.expCoef.get k) (expQuotient constRomValues (lane a i)))) ∧
  fmul 0xC907#16 constRomValues.invln2 = 0xCB40#16 ∧ asS16 (expQuotient constRomValues 0xC907#16) = -14 ∧
  asS16 (expQuotient constRomValues 0xFC00#16) = -32768

/-- R183: while the polynomial's exponent field (of a normal number) plus m stays in 1 to 30, the saturating add into
the bit pattern multiplies by 2^m and keeps sign and mantissa. -/
def Obligations.ExpRebuildMultipliesByAPowerOfTwo : Prop :=
  ∀ p m : Half, 1 ≤ expOf p → expOf p ≤ 30 → 1 ≤ (expOf p : Int) + asS16 m → (expOf p : Int) + asS16 m ≤ 30 →
    signOf (expRebuild p m) = signOf p ∧ (expOf (expRebuild p m) : Int) = expOf p + asS16 m ∧
    manOf (expRebuild p m) = manOf p ∧
    valueUnits (expRebuild p m) * 2 ^ 30 = valueUnits p * 2 ^ (asS16 m + 30).toNat

/-- R185: NaN inputs give the default NaN with any table; zeros and subnormals give m = 0 and, with the default table
(PRESUMED, log 4), 1.0. -/
def Obligations.ExpOfNaNAndOfTinyInputs : Prop :=
  (∀ (x : Half) (c : Lane → Half), isNaN x = true → expCore constRomValues c x = 0x7E00#16) ∧
  ∀ x : Half, expOf x = 0 → expQuotient constRomValues x = 0x0000#16 ∧
    expCore constRomValues (fun k => expCoefDefault.get k) x = 0x3C00#16

/-! ## Numeric primitives -/

/-- R6: RoundH gives a nearest binary16 value, the one with the even significand at a tie, with the sign of q, infinity
from 65520 on, and the sign zs for an exact zero. -/
def Obligations.RoundHIsNearestTiesToEven : Prop :=
  ∀ (num : Int) (den : Nat) (zs : Bool), 0 < den →
    (num = 0 → roundH num den zs = if zs then 0x8000#16 else 0x0000#16) ∧
    (65520 * den ≤ num.natAbs → roundH num den zs = if num < 0 then 0xFC00#16 else 0x7C00#16) ∧
    (num ≠ 0 → num.natAbs < 65520 * den →
      isFinite (roundH num den zs) = true ∧ signOf (roundH num den zs) = decide (num < 0) ∧
      ∀ h : Half, isFinite h = true →
        distance num den (roundH num den zs) ≤ distance num den h ∧
        (distance num den (roundH num den zs) = distance num den h → valueUnits h ≠ valueUnits (roundH num den zs) →
          manOf (roundH num den zs) % 2 = 0))

/-- R7: a NaN operand, inf * 0 and inf - inf give the default NaN, and no other NaN is ever the result. -/
def Obligations.FloatingPointNaNsAreTheDefault : Prop :=
  (∀ a b : Half, (isNaN a = true ∨ isNaN b = true ∨ (isInf a = true ∧ isZero b = true) ∨
      (isZero a = true ∧ isInf b = true)) → fmul a b = 0x7E00#16) ∧
  (∀ a b c : Half, (isNaN a = true ∨ isNaN b = true ∨ isNaN c = true ∨ (isInf a = true ∧ isZero b = true) ∨
      (isZero a = true ∧ isInf b = true) ∨
      ((isInf a = true ∨ isInf b = true) ∧ isInf c = true ∧ signOf c ≠ (signOf a ^^ signOf b))) →
      fma a b c = 0x7E00#16) ∧
  (∀ a b : Half, isNaN (fmul a b) = true → fmul a b = 0x7E00#16) ∧
  ∀ a b c : Half, isNaN (fma a b c) = true → fma a b c = 0x7E00#16

/-- R11: EQZ and LTZ, by the bits and by the value. -/
def Obligations.ComparisonPredicates : Prop :=
  ∀ a : Half,
    (eqz a = true ↔ a.extractLsb' 0 15 = 0#15) ∧ (eqz a = true ↔ isFinite a = true ∧ valueUnits a = 0) ∧
    (isNaN a = true → eqz a = false ∧ ltz a = false) ∧
    (ltz a = true ↔ signOf a = true ∧ isZero a = false ∧ isNaN a = false) ∧
    (ltz a = true ↔ (isFinite a = true ∧ valueUnits a < 0) ∨ (isInf a = true ∧ signOf a = true))

/-- R13: NaN gives 0, the infinities the extreme integers, and any other input the nearest integer, ties to even,
clamped. -/
def Obligations.ToIntegerRoundsToNearestAndClamps : Prop :=
  ∀ a : Half,
    (isNaN a = true → asS16 (cvtF16ToS16 a) = 0) ∧
    (isInf a = true → asS16 (cvtF16ToS16 a) = if signOf a then -32768 else 32767) ∧
    (isFinite a = true → ∃ k : Int, 2 * (k * unitDen - valueUnits a).natAbs ≤ unitDen ∧
      (2 * (k * unitDen - valueUnits a).natAbs = unitDen → k % 2 = 0) ∧
      asS16 (cvtF16ToS16 a) = max (-32768) (min 32767 k))

/-- R14: the conversion rounds by RoundH, is exact up to 2048, and takes 32767 to 32768. -/
def Obligations.FromIntegerIsExactUpTo2048 : Prop :=
  (∀ i : Half, cvtS16ToF16 i = roundH (asS16 i) 1 false ∧
    (-2048 ≤ asS16 i → asS16 i ≤ 2048 →
      isFinite (cvtS16ToF16 i) = true ∧ valueUnits (cvtS16ToF16 i) = asS16 i * 2 ^ 24)) ∧
  cvtS16ToF16 0x7FFF#16 = 0x7800#16

/-- R15: the wrapping integer primitives, through the signed view: equal modulo 2^16 to the exact result; the right
shift is the floor. -/
def Obligations.IntegerPrimitivesWrap : Prop :=
  ∀ (a b : Half) (k : Nat),
    asS16 (add16 a b) ≡ asS16 a + asS16 b [ZMOD 65536] ∧ asS16 (sub16 a b) ≡ asS16 a - asS16 b [ZMOD 65536] ∧
    asS16 (shl16 a k) ≡ asS16 a * 2 ^ k [ZMOD 65536] ∧
    asS16 (asr16 a k) * 2 ^ k ≤ asS16 a ∧ asS16 a < (asS16 (asr16 a k) + 1) * 2 ^ k ∧
    ∀ j < 16, (and16 a b).getLsbD j = (a.getLsbD j && b.getLsbD j)

/-- R16: the saturating integer primitives clamp the exact result. -/
def Obligations.IntegerPrimitivesSaturate : Prop :=
  (∀ v : Int, (v < -32768 → ssat16 v = -32768) ∧ (32767 < v → ssat16 v = 32767) ∧
    (-32768 ≤ v → v ≤ 32767 → ssat16 v = v)) ∧
  ∀ (a b : Half) (k : Nat), asS16 (qshl16 a k) = ssat16 (asS16 a * 2 ^ k) ∧
    asS16 (qadd16 a b) = ssat16 (asS16 a + asS16 b)

/-- R62: a port's bytes, its lanes in them, and the round trip. -/
def Obligations.SerializedPortsAreLittleEndian : Prop :=
  ∀ v : Vec, (∀ j : Fin 16, (toBytes v).get j = v.extractLsb' (8 * j.val) 8) ∧
    (∀ i : Lane, lane v i = portByte v ⟨2 * i.val + 1, by omega⟩ ++ portByte v ⟨2 * i.val, by omega⟩) ∧
    ofBytes (toBytes v) = v

/-! ## The machine -/

/-- Reset: every row of R230's table, with the default tables of R44 and R45 (PRESUMED, log 4). -/
def Obligations.ResetHoldsTheValuesOfTheTable : Prop :=
  State.reset.constRom.k1 = 0x3DA6#16 ∧ State.reset.constRom.k2 = 0x3788#16 ∧ State.reset.constRom.two = 0x4000#16 ∧
  State.reset.constRom.ln2 = 0x398C#16 ∧ State.reset.constRom.invln2 = 0x3DC5#16 ∧
  State.reset.constRom.pinf = 0x7C00#16 ∧ State.reset.constRom.ninf = 0xFC00#16 ∧
  State.reset.constRom.pzero = 0x0000#16 ∧
  State.reset.expCoef.toList = [0x3C00#16, 0x2955#16, 0x3800#16, 0x15C9#16, 0x3C00#16, 0x2045#16, 0x3155#16, 0x0A6A#16] ∧
  State.reset.logCoef.toList = [0xC097#16, 0xC0F1#16, 0xC5B0#16, 0xB14A#16, 0x452D#16, 0x3AC1#16, 0x4496#16, 0x233C#16] ∧
  State.reset.y = none ∧ State.reset.n = none ∧ State.reset.refusalMark = false ∧ State.reset.faultRecord = none

/-- The invariant holds right after reset, for an instance built with any tables. -/
def Obligations.BuiltInstanceMeetsTheInvariant : Prop :=
  ∀ (source : Nat) (e l : CoefTable), (State.build source e l).Inv ∧ (State.build source e l).expCoef = e ∧
    (State.build source e l).logCoef = l

/-- Every step keeps the invariant: the scalar ROM is that of R43, Y and N hold values together (R64), and those values
are the outputs of the most recent accepted command (R231), on every lane that is no draw. That its presentation stands in
the state is the model's (DESIGN CHOICE, log 2). -/
def Obligations.StepKeepsTheInvariant : Prop := ∀ s t : State, s.Inv → step s = .next t → t.Inv

/-- The same where a refusal or a fault is recorded in the state, which neither hinders nor changes the outputs (R84, R201,
R231, R236). -/
def Obligations.RecordedStepKeepsTheInvariant : Prop := ∀ s : State, s.Inv → (stepRecorded s).Inv

/-- R44, R45, R230: no move of the host changes the constants or the tables. -/
def Obligations.NoMoveChangesTheRom : Prop := ∀ s : State, s.sameRom (stepRecorded s)

/-- A step runs the command the presented word decodes to, on the sampled ports (a State field, DESIGN CHOICE, log 2), the
move being used up (DESIGN CHOICE, log 1). -/
def Obligations.StepRunsTheDecodedCommand : Prop :=
  ∀ (s : State) (p : Presentation) (rest : List HostMove) (w : Byte) (i : Instr), s.notRefused →
    s.pending = .command p :: rest → p.cmd = some w → decode w = .ok i →
    step s = exec i { s with ports := p, pending := rest }

/-- R84: a reserved word is refused, writes neither output, and is recorded by the refusal mark. That the refusal has the
name reservedCommand even where A or B is not whole is the model's choice (DESIGN CHOICE, log 12), and so is what the
equation says of the list of moves and the input ports (DESIGN CHOICE, logs 1, 2). A fault recorded before changes
nothing of it (R201, R203). -/
def Obligations.ReservedWordIsRefusedAndMarked : Prop :=
  ∀ (s : State) (p : Presentation) (rest : List HostMove) (w : Byte), s.notRefused →
    s.pending = .command p :: rest → p.cmd = some w → reservedWord w →
    (∃ why, step s = .refused (.reservedCommand w why)) ∧
    stepRecorded s = { s with pending := rest, refusalMark := true }

/-- R84, R236: once a command is refused, the mark stays for the rest of the run, and no move but reset clears it or
changes the outputs. That a later command is refused by the name runEnded, and that reset clears the mark, is the model's
reading (DEDUCED, log 6); that the name is runEnded even for a word that is reserved or a port that is not whole is its
choice (DESIGN CHOICE, log 12). -/
def Obligations.RefusalMarkStaysForTheRun : Prop :=
  ∀ s : State, s.refusalMark = true → (∀ rest, s.pending ≠ .reset :: rest) →
    (stepRecorded s).refusalMark = true ∧ (stepRecorded s).y = s.y ∧ (stepRecorded s).n = s.n ∧
    ∀ p rest, s.pending = .command p :: rest → step s = .refused .runEnded

/-- R63: a presentation with a port that is not whole is refused, whatever its other ports hold: for every command (DEDUCED,
log 9). That the refusal sets the mark is the model's reading (DEDUCED, log 6: R63 and R201 say only 'refused'); what
the equation says of the list of moves and the input ports is its choice (DESIGN CHOICE, logs 1, 2). -/
def Obligations.PartialPresentationIsRefused : Prop :=
  ∀ (s : State) (p : Presentation) (rest : List HostMove), s.pending = .command p :: rest →
    p.whole = false → (∃ r, step s = .refused r) ∧
    stepRecorded s = { s with pending := rest, refusalMark := true }

/-- R231, R235: after reset Y and N hold no value; a read before the first accepted command faults; after it, it gives the
port's value; an accepted command leaves in the ports what exec of it on the sampled ports writes; and the outputs hold
until the next accepted command or reset: a read, a refused command and an idle step write neither port. The list of moves
and lastRead are the model's (DESIGN CHOICE, log 1), the idle step is its reading (DEDUCED, log 1), and so are reads after
a refusal (DEDUCED, log 6); the field that holds the sampled ports is its choice (DESIGN CHOICE, log 2). -/
def Obligations.OutputsHoldUntilTheNextAcceptedCommand : Prop :=
  (State.reset.y = none ∧ State.reset.n = none) ∧
  (∀ (s : State) (port : OutPort) (rest : List HostMove), s.pending = .read port :: rest →
    (s.output port = none → step s = .fault (.readBeforeFirstCommand port)) ∧
    ∀ v, s.output port = some v →
      step s = .next { s with lastRead := some (port, v), pending := rest }) ∧
  (∀ s : State, (∀ p rest, s.pending = .command p :: rest → ∃ r, step s = .refused r) →
    (∀ rest, s.pending ≠ .reset :: rest) → (stepRecorded s).y = s.y ∧ (stepRecorded s).n = s.n) ∧
  ∀ (s : State) (p : Presentation) (rest : List HostMove), s.notRefused →
    s.pending = .command p :: rest → accepted p →
    ∃ i t yv nv, p.cmd = some (encode i) ∧ exec i { s with ports := p, pending := rest } = .next t ∧
      step s = .next t ∧ t.y = some yv ∧ t.n = some nv

/-- R201, R231: a read before the first accepted command is recorded as a fault, and a recorded fault is never cleared: it
stays at every move but reset, after which the record is empty (R230). That R201's 'never' is of every move but reset is
the model's reading (DEDUCED, log 6), and that of two faults the first stays recorded is its choice (DESIGN CHOICE,
log 6). -/
def Obligations.RecordedFaultIsNeverCleared : Prop :=
  (∀ (s : State) (port : OutPort) (rest : List HostMove), s.pending = .read port :: rest → s.output port = none →
    (stepRecorded s).faultRecord = some (s.faultRecord.getD (.readBeforeFirstCommand port))) ∧
  (∀ (s : State) (f : Fault), s.faultRecord = some f → (∀ rest, s.pending ≠ .reset :: rest) →
    (stepRecorded s).faultRecord = some f) ∧
  ∀ (s : State) (rest : List HostMove), s.pending = .reset :: rest → (stepRecorded s).faultRecord = none

/-- R201, R235, R236: the fault record hinders no move. Two states that differ in it alone step alike: where one answers a
next state, so does the other, and these again differ in the record alone, which the step leaves as it was unless it is a
reset; and both fault alike and are refused alike. -/
def Obligations.FaultRecordHindersNoMove : Prop :=
  ∀ (s : State) (r : Option Fault),
    (∀ t, step s = .next t → ∃ r', step { s with faultRecord := r } = .next { t with faultRecord := r' } ∧
      ((∀ rest, s.pending ≠ .reset :: rest) → r' = r)) ∧
    (∀ f, step s = .fault f → step { s with faultRecord := r } = .fault f) ∧
    ∀ e, step s = .refused e → step { s with faultRecord := r } = .refused e

/-- R230, R235: a reset move, whatever the mark and the record hold, leaves Y and N without a value, the mark clear, the
record empty and nothing sampled at the input ports, and does not change the ROM; a command the host then presents runs.
That reset clears the mark and the record although R84 and R201 keep them is the model's reading (DEDUCED, log 6). What
the equation says besides is its choice, for R230 gives none of it a value: the later moves and lastRead stay (DESIGN
CHOICE, log 1), the input ports hold no value (the field: DESIGN CHOICE, log 2), the source and the count of draws stay
(DESIGN CHOICE, log 5). -/
def Obligations.ResetMoveClearsOutputsAndMark : Prop :=
  ∀ (s : State) (rest : List HostMove), s.pending = .reset :: rest →
    ∃ t, step s = .next t ∧
      t = { s with ports := Presentation.nothing, y := none, n := none, refusalMark := false, faultRecord := none,
                   pending := rest } ∧
      ∀ p rest', rest = .command p :: rest' → accepted p → ∃ u, step t = .next u

/-- R65: two commands give the same outputs in either order, on every lane that is no draw. -/
def Obligations.CommandOrderDoesNotMatter : Prop :=
  ∀ (i j : Instr) (s : State) (p q : Presentation) (a a' : Vec), p.whole = true → q.whole = true →
    p.a = some a → q.a = some a' →
    ∃ s1 s2 t1 t2, exec i (s.sample p) = .next s1 ∧ exec j (s1.sample q) = .next s2 ∧
      exec j (s.sample q) = .next t1 ∧ exec i (t1.sample p) = .next t2 ∧
      ∀ k, (laneIsFixed i (lane a k) = true → sameOutputLane s1 t2 k) ∧
        (laneIsFixed j (lane a' k) = true → sameOutputLane s2 t1 k)

/-- R40, R65, R236: after any number of accepted commands the outputs are those the last command has on its own; the run
has no refusal and records no fault, whatever fault was recorded before it, and the ROM is unchanged. That the run is a list
of moves in the state, and that none is left, is the model's (DESIGN CHOICE, log 1). -/
def Obligations.EndOfRunIsTheLastCommandAlone : Prop :=
  ∀ (s : State) (ps : List Presentation) (w : Byte) (a b : Vec) (i : Instr), s.notRefused →
    (∀ p ∈ ps, accepted p) → decode w = .ok i →
    ∃ t u : State,
      Sys2Proof.core.run (ps.length + 1)
        { s with pending := (ps ++ [Presentation.mk (some w) (some a) (some b)]).map HostMove.command } = .next t ∧
      exec i { s with ports := Presentation.mk (some w) (some a) (some b) } = .next u ∧
      t.faultRecord = s.faultRecord ∧ t.notRefused ∧ t.pending = [] ∧ s.sameRom t ∧
      ∀ k, laneIsFixed i (lane a k) = true → sameOutputLane t u k

/-- R67: a step of one instance leaves every other instance as it was, and steps of two instances give the same in either
order. That the instances are a list, that a refusal or a fault is recorded in the instance it befalls and the others can go
on, and that a step that names no instance changes nothing is the model's choice (DESIGN CHOICE, log 13). -/
def Obligations.InstancesShareNothing : Prop :=
  ∀ (k : Nat) (fleet : List State),
    (stepInstance k fleet).length = fleet.length ∧
    (∀ j, j ≠ k → (stepInstance k fleet)[j]? = fleet[j]?) ∧
    (∀ s, fleet[k]? = some s → (stepInstance k fleet)[k]? = some (stepRecorded s)) ∧
    ∀ j, j ≠ k → stepInstance j (stepInstance k fleet) = stepInstance k (stepInstance j fleet)

/-- R52, R67: instances built together draw from sources of their own, and no step of any of them changes that: no draw
of one is a draw of another. The sources are the model's way of having no law between them (DESIGN CHOICE, log 5). -/
def Obligations.InstancesDrawApart : Prop :=
  (∀ (first : Nat) (tables : List (CoefTable × CoefTable)), drawsApart (buildInstances first tables)) ∧
  ∀ (k : Nat) (fleet : List State), drawsApart fleet → drawsApart (stepInstance k fleet)

/-- R85: a line presents its command with A = va and B = vb, or zeros where B is omitted, and the host then holds Y in vd
and, where the line names it, N in vn. That any line may omit vb, POLY's too, is the model's choice (DESIGN CHOICE, log 11),
and so is the list of moves in the equation (DESIGN CHOICE, log 1). -/
def Obligations.AssemblerLineRunsItsCommand : Prop :=
  ∀ (l : AsmLine) (h : HostVectors) (s : State) (a b : Vec), s.notRefused →
    h.value l.va = some a → (l.vb = none → b = 0#128) → (∀ vb, l.vb = some vb → h.value vb = some b) →
    l.vn ≠ some l.vd →
    ∃ h' t yv nv, runProgram [l] h s = .next (h', t) ∧
      exec l.instr { s with ports := { cmd := some (encode l.instr), a := some a, b := some b }, pending := [] } = .next t ∧
      t.y = some yv ∧ t.n = some nv ∧ h'.value l.vd = some yv ∧
      (∀ vn, l.vn = some vn → h'.value vn = some nv) ∧
      ∀ v, v ≠ l.vd → l.vn ≠ some v → h'.value v = h.value v
end

