-- ==== Sys2Proof/Laws/Binary16.lean ====
section
/-! SUPPORT. The fields of patterns (R5), what the bit primitives do to them (R10, R15), and the rounding of a quotient. -/

namespace Sys2Proof.Machine

theorem expOf_lt (h : Half) : expOf h < 32 := (h.extractLsb' 10 5).isLt
theorem manOf_lt (h : Half) : manOf h < 1024 := (h.extractLsb' 0 10).isLt

theorem expOf_eq (h : Half) : expOf h = h.toNat / 1024 % 32 := by
  simp [expOf, BitVec.extractLsb'_toNat, Nat.shiftRight_eq_div_pow]

theorem manOf_eq (h : Half) : manOf h = h.toNat % 1024 := by
  simp [manOf, BitVec.extractLsb'_toNat]

theorem signOf_eq (h : Half) : signOf h = decide (32768 ≤ h.toNat) := by
  have hm : signOf h = h.msb := (BitVec.msb_eq_getLsbD_last h).symm
  simpa using hm.trans (BitVec.msb_eq_decide h)

/-- A pattern is its three fields. -/
theorem toNat_fields (h : Half) :
    h.toNat = (if signOf h then 32768 else 0) + expOf h * 1024 + manOf h := by
  have := h.isLt
  rw [signOf_eq, expOf_eq, manOf_eq]
  by_cases hs : 32768 ≤ h.toNat <;> simp [hs] <;> omega

@[simp] theorem fneg_fneg (a : Half) : fneg (fneg a) = a := by
  simp [fneg]

@[simp] theorem fabs_fneg (a : Half) : fabs (fneg a) = fabs a := by
  apply BitVec.eq_of_getLsbD_eq
  intro i hi
  interval_cases i <;> simp [fabs, fneg]

@[simp] theorem expOf_fneg (a : Half) : expOf (fneg a) = expOf a := by
  unfold expOf
  congr 1
  apply BitVec.eq_of_getLsbD_eq
  intro i hi
  interval_cases i <;> simp [fneg]

@[simp] theorem manOf_fneg (a : Half) : manOf (fneg a) = manOf a := by
  unfold manOf
  congr 1
  apply BitVec.eq_of_getLsbD_eq
  intro i hi
  interval_cases i <;> simp [fneg]

@[simp] theorem signOf_fneg (a : Half) : signOf (fneg a) = !signOf a := by
  simp [signOf, fneg]

@[simp] theorem classOf_fneg (a : Half) : classOf (fneg a) = classOf a := by
  simp [classOf]

@[simp] theorem asU16_asS16 (u : Half) : asU16 (asS16 u) = u := by
  simp [asU16, asS16]

/-- The wrapping addition of R15 is the addition of patterns. -/
theorem add16_eq (a b : Half) : add16 a b = a + b := by
  simp [add16, asU16, asS16, BitVec.ofInt_add]

/-- The wrapping subtraction of R15 is the subtraction of patterns. -/
theorem sub16_eq (a b : Half) : sub16 a b = a - b := by
  simp [sub16, asU16, asS16, Int.sub_eq_add_neg, BitVec.ofInt_add, BitVec.ofInt_neg, BitVec.sub_eq_add_neg]

/-- The rounded quotient is within half a unit of the exact one. -/
theorem roundNearestEven_near (num den : Nat) (hd : 0 < den) :
    2 * (roundNearestEven num den * den) ≤ 2 * num + den ∧ 2 * num ≤ 2 * (roundNearestEven num den * den) + den := by
  have hq := Nat.div_add_mod num den
  have hr := Nat.mod_lt num hd
  have hc : num / den * den = den * (num / den) := Nat.mul_comm _ _
  unfold roundNearestEven
  dsimp only
  split
  · omega
  · split
    · rw [Nat.add_mul, one_mul]; omega
    · split
      · omega
      · rw [Nat.add_mul, one_mul]; omega

/-- A quotient that lies half way is rounded to the even integer. -/
theorem roundNearestEven_tie (num den : Nat) (h : 2 * (num % den) = den) : roundNearestEven num den % 2 = 0 := by
  unfold roundNearestEven
  dsimp only
  rw [if_neg (by omega), if_neg (by omega)]
  split <;> omega

/-- An integer quotient is kept. -/
theorem roundNearestEven_exact (k den : Nat) (hd : 0 < den) : roundNearestEven (k * den) den = k := by
  unfold roundNearestEven
  simp [Nat.mul_div_cancel _ hd, hd]

end Sys2Proof.Machine
end

