-- ==== Sys2Proof/Laws/Lanes.lean ====
section
/-! SUPPORT. Vectors and their lanes (R2): reading a lane of a vector built from lanes, and equality lane by lane. -/

namespace Sys2Proof.Machine

/-- Lane `i` of the vector with the lanes `f` is `f i`. -/
@[simp] theorem lane_ofLanes (f : Lane → Half) (i : Lane) : lane (ofLanes f) i = f i := by
  apply BitVec.eq_of_getLsbD_eq
  intro j hj
  simp only [lane, ofLanes, BitVec.getLsbD_extractLsb', BitVec.getLsbD_append, hj, decide_true, Bool.true_and]
  fin_cases i <;>
    · dsimp only
      repeat (first | rw [if_pos (by omega)] | rw [if_neg (by omega)])
      exact congrArg _ (by omega)

@[simp] theorem lane_broadcast (h : Half) (i : Lane) : lane (broadcast h) i = h := by
  simp [broadcast]

/-- Two vectors with the same lanes are equal. -/
theorem vec_ext_lanes {v w : Vec} (h : ∀ i, lane v i = lane w i) : v = w := by
  apply BitVec.eq_of_getLsbD_eq
  intro j hj
  have hi : j / 16 < 8 := by omega
  have := congrArg (fun x : Half => x.getLsbD (j % 16)) (h ⟨j / 16, hi⟩)
  simpa [lane, BitVec.getLsbD_extractLsb', Nat.mod_lt, Nat.div_add_mod] using this

/-- A vector is the vector of its lanes. -/
@[simp] theorem ofLanes_lane (v : Vec) : ofLanes (lane v) = v :=
  vec_ext_lanes fun i => lane_ofLanes _ i

theorem ofLanes_inj {f g : Lane → Half} : ofLanes f = ofLanes g ↔ f = g := by
  constructor
  · intro h
    funext i
    have := congrArg (fun v => lane v i) h
    simpa using this
  · rintro rfl; rfl

end Sys2Proof.Machine
end

