-- ==== Sys2Proof/Laws/State.lean ====
section
/-! SUPPORT. One lemma per field of State per update. -/

namespace Sys2Proof.Machine

@[simp] theorem State.sample_constRom (s : State) (p : Presentation) : (s.sample p).constRom = s.constRom := rfl
@[simp] theorem State.sample_expCoef (s : State) (p : Presentation) : (s.sample p).expCoef = s.expCoef := rfl
@[simp] theorem State.sample_logCoef (s : State) (p : Presentation) : (s.sample p).logCoef = s.logCoef := rfl
@[simp] theorem State.sample_ports (s : State) (p : Presentation) : (s.sample p).ports = p := rfl
@[simp] theorem State.sample_y (s : State) (p : Presentation) : (s.sample p).y = s.y := rfl
@[simp] theorem State.sample_n (s : State) (p : Presentation) : (s.sample p).n = s.n := rfl
@[simp] theorem State.sample_refusalMark (s : State) (p : Presentation) : (s.sample p).refusalMark = s.refusalMark := rfl
@[simp] theorem State.sample_faultRecord (s : State) (p : Presentation) : (s.sample p).faultRecord = s.faultRecord := rfl
@[simp] theorem State.sample_pending (s : State) (p : Presentation) : (s.sample p).pending = s.pending.tail := rfl
@[simp] theorem State.sample_lastRead (s : State) (p : Presentation) : (s.sample p).lastRead = s.lastRead := rfl
@[simp] theorem State.sample_drawSource (s : State) (p : Presentation) : (s.sample p).drawSource = s.drawSource := rfl
@[simp] theorem State.sample_drawCount (s : State) (p : Presentation) : (s.sample p).drawCount = s.drawCount := rfl

@[simp] theorem State.writeOutputs_constRom (s : State) (yv nv : Vec) : (s.writeOutputs yv nv).constRom = s.constRom := rfl
@[simp] theorem State.writeOutputs_expCoef (s : State) (yv nv : Vec) : (s.writeOutputs yv nv).expCoef = s.expCoef := rfl
@[simp] theorem State.writeOutputs_logCoef (s : State) (yv nv : Vec) : (s.writeOutputs yv nv).logCoef = s.logCoef := rfl
@[simp] theorem State.writeOutputs_ports (s : State) (yv nv : Vec) : (s.writeOutputs yv nv).ports = s.ports := rfl
@[simp] theorem State.writeOutputs_y (s : State) (yv nv : Vec) : (s.writeOutputs yv nv).y = some yv := rfl
@[simp] theorem State.writeOutputs_n (s : State) (yv nv : Vec) : (s.writeOutputs yv nv).n = some nv := rfl
@[simp] theorem State.writeOutputs_refusalMark (s : State) (yv nv : Vec) : (s.writeOutputs yv nv).refusalMark = s.refusalMark := rfl
@[simp] theorem State.writeOutputs_faultRecord (s : State) (yv nv : Vec) : (s.writeOutputs yv nv).faultRecord = s.faultRecord := rfl
@[simp] theorem State.writeOutputs_pending (s : State) (yv nv : Vec) : (s.writeOutputs yv nv).pending = s.pending := rfl
@[simp] theorem State.writeOutputs_lastRead (s : State) (yv nv : Vec) : (s.writeOutputs yv nv).lastRead = s.lastRead := rfl
@[simp] theorem State.writeOutputs_drawSource (s : State) (yv nv : Vec) : (s.writeOutputs yv nv).drawSource = s.drawSource := rfl
@[simp] theorem State.writeOutputs_drawCount (s : State) (yv nv : Vec) : (s.writeOutputs yv nv).drawCount = s.drawCount := rfl

@[simp] theorem State.advanceDraws_constRom (s : State) (k : Nat) : (s.advanceDraws k).constRom = s.constRom := rfl
@[simp] theorem State.advanceDraws_expCoef (s : State) (k : Nat) : (s.advanceDraws k).expCoef = s.expCoef := rfl
@[simp] theorem State.advanceDraws_logCoef (s : State) (k : Nat) : (s.advanceDraws k).logCoef = s.logCoef := rfl
@[simp] theorem State.advanceDraws_ports (s : State) (k : Nat) : (s.advanceDraws k).ports = s.ports := rfl
@[simp] theorem State.advanceDraws_y (s : State) (k : Nat) : (s.advanceDraws k).y = s.y := rfl
@[simp] theorem State.advanceDraws_n (s : State) (k : Nat) : (s.advanceDraws k).n = s.n := rfl
@[simp] theorem State.advanceDraws_refusalMark (s : State) (k : Nat) : (s.advanceDraws k).refusalMark = s.refusalMark := rfl
@[simp] theorem State.advanceDraws_faultRecord (s : State) (k : Nat) : (s.advanceDraws k).faultRecord = s.faultRecord := rfl
@[simp] theorem State.advanceDraws_pending (s : State) (k : Nat) : (s.advanceDraws k).pending = s.pending := rfl
@[simp] theorem State.advanceDraws_lastRead (s : State) (k : Nat) : (s.advanceDraws k).lastRead = s.lastRead := rfl
@[simp] theorem State.advanceDraws_drawSource (s : State) (k : Nat) : (s.advanceDraws k).drawSource = s.drawSource := rfl
@[simp] theorem State.advanceDraws_drawCount (s : State) (k : Nat) : (s.advanceDraws k).drawCount = s.drawCount + k := rfl

@[simp] theorem State.dropMove_constRom (s : State) : (s.dropMove).constRom = s.constRom := rfl
@[simp] theorem State.dropMove_expCoef (s : State) : (s.dropMove).expCoef = s.expCoef := rfl
@[simp] theorem State.dropMove_logCoef (s : State) : (s.dropMove).logCoef = s.logCoef := rfl
@[simp] theorem State.dropMove_ports (s : State) : (s.dropMove).ports = s.ports := rfl
@[simp] theorem State.dropMove_y (s : State) : (s.dropMove).y = s.y := rfl
@[simp] theorem State.dropMove_n (s : State) : (s.dropMove).n = s.n := rfl
@[simp] theorem State.dropMove_refusalMark (s : State) : (s.dropMove).refusalMark = s.refusalMark := rfl
@[simp] theorem State.dropMove_faultRecord (s : State) : (s.dropMove).faultRecord = s.faultRecord := rfl
@[simp] theorem State.dropMove_pending (s : State) : (s.dropMove).pending = s.pending.tail := rfl
@[simp] theorem State.dropMove_lastRead (s : State) : (s.dropMove).lastRead = s.lastRead := rfl
@[simp] theorem State.dropMove_drawSource (s : State) : (s.dropMove).drawSource = s.drawSource := rfl
@[simp] theorem State.dropMove_drawCount (s : State) : (s.dropMove).drawCount = s.drawCount := rfl

@[simp] theorem State.assertReset_constRom (s : State) : (s.assertReset).constRom = s.constRom := rfl
@[simp] theorem State.assertReset_expCoef (s : State) : (s.assertReset).expCoef = s.expCoef := rfl
@[simp] theorem State.assertReset_logCoef (s : State) : (s.assertReset).logCoef = s.logCoef := rfl
@[simp] theorem State.assertReset_ports (s : State) : (s.assertReset).ports = Presentation.nothing := rfl
@[simp] theorem State.assertReset_y (s : State) : (s.assertReset).y = none := rfl
@[simp] theorem State.assertReset_n (s : State) : (s.assertReset).n = none := rfl
@[simp] theorem State.assertReset_refusalMark (s : State) : (s.assertReset).refusalMark = false := rfl
@[simp] theorem State.assertReset_faultRecord (s : State) : (s.assertReset).faultRecord = none := rfl
@[simp] theorem State.assertReset_pending (s : State) : (s.assertReset).pending = s.pending := rfl
@[simp] theorem State.assertReset_lastRead (s : State) : (s.assertReset).lastRead = s.lastRead := rfl
@[simp] theorem State.assertReset_drawSource (s : State) : (s.assertReset).drawSource = s.drawSource := rfl
@[simp] theorem State.assertReset_drawCount (s : State) : (s.assertReset).drawCount = s.drawCount := rfl

@[simp] theorem State.giveHost_constRom (s : State) (port : OutPort) (v : Vec) : (s.giveHost port v).constRom = s.constRom := rfl
@[simp] theorem State.giveHost_expCoef (s : State) (port : OutPort) (v : Vec) : (s.giveHost port v).expCoef = s.expCoef := rfl
@[simp] theorem State.giveHost_logCoef (s : State) (port : OutPort) (v : Vec) : (s.giveHost port v).logCoef = s.logCoef := rfl
@[simp] theorem State.giveHost_ports (s : State) (port : OutPort) (v : Vec) : (s.giveHost port v).ports = s.ports := rfl
@[simp] theorem State.giveHost_y (s : State) (port : OutPort) (v : Vec) : (s.giveHost port v).y = s.y := rfl
@[simp] theorem State.giveHost_n (s : State) (port : OutPort) (v : Vec) : (s.giveHost port v).n = s.n := rfl
@[simp] theorem State.giveHost_refusalMark (s : State) (port : OutPort) (v : Vec) : (s.giveHost port v).refusalMark = s.refusalMark := rfl
@[simp] theorem State.giveHost_faultRecord (s : State) (port : OutPort) (v : Vec) : (s.giveHost port v).faultRecord = s.faultRecord := rfl
@[simp] theorem State.giveHost_pending (s : State) (port : OutPort) (v : Vec) : (s.giveHost port v).pending = s.pending := rfl
@[simp] theorem State.giveHost_lastRead (s : State) (port : OutPort) (v : Vec) : (s.giveHost port v).lastRead = some (port, v) := rfl
@[simp] theorem State.giveHost_drawSource (s : State) (port : OutPort) (v : Vec) : (s.giveHost port v).drawSource = s.drawSource := rfl
@[simp] theorem State.giveHost_drawCount (s : State) (port : OutPort) (v : Vec) : (s.giveHost port v).drawCount = s.drawCount := rfl

@[simp] theorem State.markRefused_constRom (s : State) : s.markRefused.constRom = s.constRom := rfl
@[simp] theorem State.markRefused_expCoef (s : State) : s.markRefused.expCoef = s.expCoef := rfl
@[simp] theorem State.markRefused_logCoef (s : State) : s.markRefused.logCoef = s.logCoef := rfl
@[simp] theorem State.markRefused_ports (s : State) : s.markRefused.ports = s.ports := rfl
@[simp] theorem State.markRefused_y (s : State) : s.markRefused.y = s.y := rfl
@[simp] theorem State.markRefused_n (s : State) : s.markRefused.n = s.n := rfl
@[simp] theorem State.markRefused_refusalMark (s : State) : s.markRefused.refusalMark = true := rfl
@[simp] theorem State.markRefused_faultRecord (s : State) : s.markRefused.faultRecord = s.faultRecord := rfl
@[simp] theorem State.markRefused_pending (s : State) : s.markRefused.pending = s.pending := rfl
@[simp] theorem State.markRefused_lastRead (s : State) : s.markRefused.lastRead = s.lastRead := rfl
@[simp] theorem State.markRefused_drawSource (s : State) : s.markRefused.drawSource = s.drawSource := rfl
@[simp] theorem State.markRefused_drawCount (s : State) : s.markRefused.drawCount = s.drawCount := rfl

@[simp] theorem State.recordFault_constRom (s : State) (f : Fault) : (s.recordFault f).constRom = s.constRom := rfl
@[simp] theorem State.recordFault_expCoef (s : State) (f : Fault) : (s.recordFault f).expCoef = s.expCoef := rfl
@[simp] theorem State.recordFault_logCoef (s : State) (f : Fault) : (s.recordFault f).logCoef = s.logCoef := rfl
@[simp] theorem State.recordFault_ports (s : State) (f : Fault) : (s.recordFault f).ports = s.ports := rfl
@[simp] theorem State.recordFault_y (s : State) (f : Fault) : (s.recordFault f).y = s.y := rfl
@[simp] theorem State.recordFault_n (s : State) (f : Fault) : (s.recordFault f).n = s.n := rfl
@[simp] theorem State.recordFault_refusalMark (s : State) (f : Fault) : (s.recordFault f).refusalMark = s.refusalMark := rfl
@[simp] theorem State.recordFault_faultRecord (s : State) (f : Fault) : (s.recordFault f).faultRecord = some (s.faultRecord.getD f) := rfl
@[simp] theorem State.recordFault_pending (s : State) (f : Fault) : (s.recordFault f).pending = s.pending := rfl
@[simp] theorem State.recordFault_lastRead (s : State) (f : Fault) : (s.recordFault f).lastRead = s.lastRead := rfl
@[simp] theorem State.recordFault_drawSource (s : State) (f : Fault) : (s.recordFault f).drawSource = s.drawSource := rfl
@[simp] theorem State.recordFault_drawCount (s : State) (f : Fault) : (s.recordFault f).drawCount = s.drawCount := rfl

@[simp] theorem State.output_y (s : State) : s.output .y = s.y := rfl
@[simp] theorem State.output_n (s : State) : s.output .n = s.n := rfl

end Sys2Proof.Machine
end

