-- ==== Sys2Proof/Laws/Ops.lean ====
section
/-! SUPPORT. One spec lemma per shared operation: everything `withOperands` and `mapLanes` can do. -/

namespace Sys2Proof.Machine

/-- With whole operands a command completes. -/
theorem withOperands_whole {s : State} {a b : Vec} (f : Vec → Vec → State) (ha : s.ports.a = some a)
    (hb : s.ports.b = some b) : withOperands s f = .next (f a b) := by
  simp [withOperands, ha, hb]

/-- A command on operands completes only on whole ports. -/
theorem withOperands_next {s t : State} {f : Vec → Vec → State} (h : withOperands s f = .next t) :
    ∃ a b, s.ports.a = some a ∧ s.ports.b = some b ∧ t = f a b := by
  unfold withOperands at h
  split at h
  next a b ha hb =>
    injection h with h
    exact ⟨a, b, ha, hb, h.symm⟩
  next => cases h

/-- A command on operands never faults. -/
theorem withOperands_ne_fault (s : State) (f : Vec → Vec → State) (e : Fault) : withOperands s f ≠ .fault e := by
  unfold withOperands
  split <;> simp

/-- A command on operands refuses only a port that is not whole. -/
theorem withOperands_refused {s : State} {f : Vec → Vec → State} {r : Refusal} (h : withOperands s f = .refused r) :
    r = .portNotWhole ∧ (s.ports.a = none ∨ s.ports.b = none) := by
  unfold withOperands at h
  split at h
  next => cases h
  next hn =>
    injection h with h
    refine ⟨h.symm, ?_⟩
    cases ha : s.ports.a with
    | none => exact .inl rfl
    | some a =>
      cases hb : s.ports.b with
      | none => exact .inr rfl
      | some b => exact absurd hb (hn a b ha)

/-- A one-vector command on whole ports: Y is computed lane by lane and N is zero. -/
theorem mapLanes_whole {s : State} {a b : Vec} (f : Vec → Half → Half) (ha : s.ports.a = some a)
    (hb : s.ports.b = some b) :
    mapLanes s f = .next (s.writeOutputs (ofLanes fun i => f b (lane a i)) (broadcast 0x0000#16)) :=
  withOperands_whole _ ha hb

/-- What a one-vector command that completes has done. -/
theorem mapLanes_next {s t : State} {f : Vec → Half → Half} (h : mapLanes s f = .next t) :
    ∃ a b, s.ports.a = some a ∧ s.ports.b = some b ∧
      t = s.writeOutputs (ofLanes fun i => f b (lane a i)) (broadcast 0x0000#16) :=
  withOperands_next h

end Sys2Proof.Machine
end

