-- ==== Sys2Proof/Laws/Exec.lean ====
section
/-! SUPPORT. Each command as one shared operation, and everything exec can do, once. -/

namespace Sys2Proof.Machine

theorem exec_recipm (s : State) : exec .recipm s = mapLanes s fun _ x => recipCore s.constRom x 3 := rfl
theorem exec_reciph (s : State) : exec .reciph s = mapLanes s fun _ x => recipCore s.constRom x 4 := rfl
theorem exec_poly (s : State) : exec .poly s = mapLanes s fun b x => estrin x (coefficients s b .portB) := rfl
theorem exec_polyE (s : State) : exec .polyE s = mapLanes s fun b x => estrin x (coefficients s b .expTable) := rfl
theorem exec_polyL (s : State) : exec .polyL s = mapLanes s fun b x => estrin x (coefficients s b .logTable) := rfl
theorem exec_exp (s : State) :
    exec .exp s = mapLanes s fun b x => expCore s.constRom (coefficients s b .expTable) x := rfl

theorem coefficients_portB (s : State) (b : Vec) : coefficients s b .portB = lane b := rfl
theorem coefficients_expTable (s : State) (b : Vec) : coefficients s b .expTable = fun k => s.expCoef.get k := rfl
theorem coefficients_logTable (s : State) (b : Vec) : coefficients s b .logTable = fun k => s.logCoef.get k := rfl

/-- Every command is a function of whole operands that writes the outputs and counts its draws. -/
theorem exec_shape (i : Instr) (s : State) : ∃ (y n : Vec → Vec → Vec) (d : Nat),
    exec i s = withOperands s fun a b => (s.writeOutputs (y a b) (n a b)).advanceDraws d := by
  cases i
  case split => exact ⟨fun a _ => _, fun a _ => _, 16, rfl⟩
  case log => exact ⟨fun a b => _, fun _ _ => _, 8, rfl⟩
  all_goals exact ⟨fun a b => _, fun _ _ => _, 0, rfl⟩

/-- What a command that completes has done. -/
theorem exec_next {i : Instr} {s t : State} (h : exec i s = .next t) : ∃ a b yv nv d,
    s.ports.a = some a ∧ s.ports.b = some b ∧ t = (s.writeOutputs yv nv).advanceDraws d := by
  obtain ⟨y, n, d, he⟩ := exec_shape i s
  rw [he] at h
  obtain ⟨a, b, ha, hb, ht⟩ := withOperands_next h
  exact ⟨a, b, _, _, d, ha, hb, ht⟩

/-- No command faults (R200). -/
theorem exec_ne_fault (i : Instr) (s : State) (e : Fault) : exec i s ≠ .fault e := by
  obtain ⟨y, n, d, he⟩ := exec_shape i s
  rw [he]
  exact withOperands_ne_fault _ _ _

/-- A command refuses only operands that are not whole (R63). -/
theorem exec_refused {i : Instr} {s : State} {r : Refusal} (h : exec i s = .refused r) :
    r = .portNotWhole ∧ (s.ports.a = none ∨ s.ports.b = none) := by
  obtain ⟨y, n, d, he⟩ := exec_shape i s
  rw [he] at h
  exact withOperands_refused h

end Sys2Proof.Machine
end

