-- ==== Sys2Proof/Laws/PerInstr.lean ====
section
/-! SUPPORT. Statements about every command as syntax, one lemma per constructor of Instr. -/

/-- A command's fields are well formed, and its word decodes to it (R80 to R82, R84). -/
def Sys2Proof.Laws.RoundTrip.Statement (i : Sys2Proof.Instr) : Prop :=
  (Sys2Proof.fieldsFor i).wf = true ∧ Sys2Proof.decode (Sys2Proof.encode i) = .ok i

theorem Sys2Proof.Laws.RoundTrip.recipm : Sys2Proof.Laws.RoundTrip.Statement .recipm := ⟨rfl, rfl⟩
theorem Sys2Proof.Laws.RoundTrip.reciph : Sys2Proof.Laws.RoundTrip.Statement .reciph := ⟨rfl, rfl⟩
theorem Sys2Proof.Laws.RoundTrip.poly : Sys2Proof.Laws.RoundTrip.Statement .poly := ⟨rfl, rfl⟩
theorem Sys2Proof.Laws.RoundTrip.polyE : Sys2Proof.Laws.RoundTrip.Statement .polyE := ⟨rfl, rfl⟩
theorem Sys2Proof.Laws.RoundTrip.polyL : Sys2Proof.Laws.RoundTrip.Statement .polyL := ⟨rfl, rfl⟩
theorem Sys2Proof.Laws.RoundTrip.split : Sys2Proof.Laws.RoundTrip.Statement .split := ⟨rfl, rfl⟩
theorem Sys2Proof.Laws.RoundTrip.log : Sys2Proof.Laws.RoundTrip.Statement .log := ⟨rfl, rfl⟩
theorem Sys2Proof.Laws.RoundTrip.exp : Sys2Proof.Laws.RoundTrip.Statement .exp := ⟨rfl, rfl⟩
end

