-- ==== Sys2Proof/Laws/Rounding.lean ====
section
/-! SUPPORT. Patterns built from a sign and a magnitude, and the range of RoundH. -/

namespace Sys2Proof.Machine

theorem withSign_toNat (s : Bool) {m : Nat} (hm : m < 32768) :
    (withSign s m).toNat = (if s then 32768 else 0) + m := by
  have hand : (0x8000#16 : Half) &&& BitVec.ofNat 16 m = 0#16 := by
    apply BitVec.eq_of_getLsbD_eq
    intro i hi
    simp only [BitVec.getLsbD_and, BitVec.getLsbD_zero]
    by_cases h : i = 15
    · subst h
      have hb : (BitVec.ofNat 16 m).getLsbD 15 = false := by
        rw [BitVec.getLsbD_ofNat, Nat.testBit_lt_two_pow (show m < 2 ^ 15 from hm), Bool.and_false]
      rw [hb, Bool.and_false]
    · interval_cases i <;> simp_all
  cases s
  · simp only [withSign, Bool.false_eq_true, if_false, BitVec.zero_or, BitVec.toNat_ofNat]
    omega
  · simp only [withSign, if_true]
    rw [← BitVec.add_eq_or_of_and_eq_zero _ _ hand, BitVec.toNat_add, BitVec.toNat_ofNat, BitVec.toNat_ofNat]
    omega

@[simp] theorem signOf_withSign (s : Bool) {m : Nat} (hm : m < 32768) : signOf (withSign s m) = s := by
  rw [signOf_eq, withSign_toNat s hm]
  cases s
  · simp only [Bool.false_eq_true, if_false, decide_eq_false_iff_not]; omega
  · simp only [if_true, decide_eq_true_eq]; omega

@[simp] theorem expOf_withSign (s : Bool) {m : Nat} (hm : m < 32768) : expOf (withSign s m) = m / 1024 := by
  rw [expOf_eq, withSign_toNat s hm]
  cases s
  · simp only [Bool.false_eq_true, if_false]; omega
  · simp only [if_true]; omega

@[simp] theorem manOf_withSign (s : Bool) {m : Nat} (hm : m < 32768) : manOf (withSign s m) = m % 1024 := by
  rw [manOf_eq, withSign_toNat s hm]
  cases s
  · simp only [Bool.false_eq_true, if_false]; omega
  · simp only [if_true]; omega

/-- A rounded quotient does not exceed an integer bound of the exact one. -/
theorem roundNearestEven_le {num den k : Nat} (hd : 0 < den) (h : num ≤ k * den) : roundNearestEven num den ≤ k := by
  by_contra hc
  have hk : k + 1 ≤ roundNearestEven num den := by omega
  have hm : (k + 1) * den ≤ roundNearestEven num den * den := Nat.mul_le_mul_right _ hk
  have hn := (roundNearestEven_near num den hd).1
  rw [Nat.add_mul, Nat.one_mul] at hm
  omega

end Sys2Proof.Machine
end

