-- ==== Sys2Proof/Laws/Step.lean ====
section
/-! SUPPORT. Everything a step can do, once: its next states, its one fault, its refusals, and each kind of move. -/

namespace Sys2Proof.Machine

theorem step_idle {s : State} (hp : s.pending = []) : step s = .next s := by
  simp [step, nextMove, hp]

theorem step_move {s : State} {m : HostMove} {rest : List HostMove} (hp : s.pending = m :: rest) :
    step s = makeMove s m := by
  simp [step, nextMove, hp]

theorem step_read {s : State} {port : OutPort} {rest : List HostMove} (hp : s.pending = .read port :: rest) :
    step s = readOutput s port := step_move hp

theorem step_reset {s : State} {rest : List HostMove} (hp : s.pending = .reset :: rest) :
    step s = .next s.assertReset.dropMove := step_move hp

/-- What a presentation that is not refused has done. -/
theorem presentCommand_next {s t : State} {p : Presentation} (h : presentCommand s p = .next t) :
    ∃ w i, s.refusalMark = false ∧ p.cmd = some w ∧ decode w = .ok i ∧ exec i (s.sample p) = .next t := by
  simp only [presentCommand] at h
  split at h
  · cases h
  next hm =>
    split at h
    · cases h
    next w hc =>
      split at h
      · cases h
      next i hd => exact ⟨w, i, by simpa using hm, hc, hd, h⟩

/-- A command never faults (R235). -/
theorem presentCommand_ne_fault (s : State) (p : Presentation) (f : Fault) : presentCommand s p ≠ .fault f := by
  intro h
  simp only [presentCommand] at h
  split at h
  · cases h
  · split at h
    · cases h
    · split at h
      · cases h
      · exact absurd h (exec_ne_fault _ _ _)

/-- What a step that answers a next state has done: nothing, an accepted command, a read, or a reset. -/
theorem step_next_cases {s t : State} (h : step s = .next t) :
    (s.pending = [] ∧ t = s) ∨
    (∃ p rest w i, s.pending = .command p :: rest ∧ s.refusalMark = false ∧ p.cmd = some w ∧ decode w = .ok i ∧
      exec i (s.sample p) = .next t) ∨
    (∃ port rest v, s.pending = .read port :: rest ∧ s.output port = some v ∧ t = (s.giveHost port v).dropMove) ∨
    (∃ rest, s.pending = .reset :: rest ∧ t = s.assertReset.dropMove) := by
  cases hp : s.pending with
  | nil =>
    rw [step_idle hp] at h
    exact .inl ⟨rfl, by injection h with h; exact h.symm⟩
  | cons m rest =>
    rw [step_move hp] at h
    cases m with
    | command p =>
      obtain ⟨w, i, hm, hc, hd, he⟩ := presentCommand_next h
      exact .inr (.inl ⟨p, rest, w, i, rfl, hm, hc, hd, he⟩)
    | read port =>
      simp only [makeMove, readOutput] at h
      split at h
      · cases h
      next v hv => exact .inr (.inr (.inl ⟨port, rest, v, rfl, hv, by injection h with h; exact h.symm⟩))
    | reset => exact .inr (.inr (.inr ⟨rest, rfl, by injection h with h; exact h.symm⟩))

/-- A step faults only on a read of a port without a value (R201, R231). -/
theorem step_fault_cases {s : State} {f : Fault} (h : step s = .fault f) :
    ∃ port rest, s.pending = .read port :: rest ∧ s.output port = none ∧ f = .readBeforeFirstCommand port := by
  cases hp : s.pending with
  | nil => rw [step_idle hp] at h; cases h
  | cons m rest =>
    rw [step_move hp] at h
    cases m with
    | command p => exact absurd h (presentCommand_ne_fault s p f)
    | read port =>
      simp only [makeMove, readOutput] at h
      split at h
      next hv => exact ⟨port, rest, rfl, hv, by injection h with h; exact h.symm⟩
      next => cases h
    | reset => cases h

/-- A step refuses only a command (R84, R201). -/
theorem step_refused_cases {s : State} {r : Refusal} (h : step s = .refused r) :
    ∃ p rest, s.pending = .command p :: rest ∧ presentCommand s p = .refused r := by
  cases hp : s.pending with
  | nil => rw [step_idle hp] at h; cases h
  | cons m rest =>
    rw [step_move hp] at h
    cases m with
    | command p => exact ⟨p, rest, rfl, h⟩
    | read port => simp only [makeMove, readOutput] at h; split at h <;> cases h
    | reset => cases h

theorem stepRecorded_next {s t : State} (h : step s = .next t) : stepRecorded s = t := by
  simp [stepRecorded, h]

theorem stepRecorded_fault {s : State} {f : Fault} (h : step s = .fault f) :
    stepRecorded s = s.dropMove.recordFault f := by
  simp [stepRecorded, h]

theorem stepRecorded_refused {s : State} {r : Refusal} (h : step s = .refused r) :
    stepRecorded s = s.dropMove.markRefused := by
  simp [stepRecorded, h]

/-- No move changes which source of draws is the instance's. -/
theorem stepRecorded_drawSource (s : State) : (stepRecorded s).drawSource = s.drawSource := by
  cases h : step s with
  | fault f => rw [stepRecorded_fault h]; rfl
  | refused r => rw [stepRecorded_refused h]; rfl
  | next t =>
    rw [stepRecorded_next h]
    obtain ⟨-, rfl⟩ | ⟨p, rest, w, i, -, -, -, -, he⟩ | ⟨port, rest, v, -, -, rfl⟩ | ⟨rest, -, rfl⟩ := step_next_cases h
    · rfl
    · obtain ⟨a, b, yv, nv, d, -, -, rfl⟩ := exec_next he
      rfl
    · rfl
    · rfl

end Sys2Proof.Machine
end

