-- ==== Sys2Proof/Machine/Timing.lean ====
section
/-! DEFINITION. The informative chain lengths of R234 and R123. No other definition uses them: no result depends on time
(R17), and LATENCY is open (`Config.latency`). -/

namespace Sys2Proof.Machine

/-- The longest chain of dependent primitive operations inside ESTRIN (R123). -/
def estrinChain : Nat := 3

/-- The chain of RECIP_CORE before its passes, two operations a pass, and the two SELECTs (R234). -/
def recipChain (passes : Nat) : Nat := 6 + 2 * passes + 2

/-- The table of R234. -/
def dependentChain : Instr → Nat
  | .recipm => recipChain 3
  | .reciph => recipChain 4
  | .poly => estrinChain
  | .polyE => estrinChain
  | .polyL => estrinChain
  | .split => 4
  | .log => 4 + estrinChain + 2
  | .exp => 4 + estrinChain + 2

end Sys2Proof.Machine
end

