-- ==== Sys2Proof/Tests/Slice0.lean ====
section
/-! SUPPORT. Tests. Expected values are those of the spec's worked traces, vectors V1 to V611 and programs P1 to P5
(95_test_vectors.md), cited at each test. -/

namespace Sys2Proof.Tests

open Sys2Proof Sys2Proof.Machine Sys2Proof.Claims

/-! ## Helpers -/

/-- After reset, with one command presented. -/
def presented (w : Byte) (a b : Vec) : State :=
  { State.reset with pending := [.command { cmd := some w, a := some a, b := some b }] }

/-- After reset, with operands at the ports. -/
def ready (a b : Vec) : State := { State.reset with ports := { cmd := none, a := some a, b := some b } }

/-- After reset, with the given moves to come. -/
def moves (ms : List HostMove) : State := { State.reset with pending := ms }

/-- A reserved word (V601) presented with whole operands. -/
def reservedMove : HostMove := .command { cmd := some 0x06#8, a := some 0#128, b := some 0#128 }

/-- The outputs a step leaves: Y and N. -/
def outputsOf : Host.Outcome State Fault Refusal → Option (Option Vec × Option Vec)
  | .next t => some (t.y, t.n)
  | .fault _ => none
  | .refused _ => none

def faultOf : Host.Outcome State Fault Refusal → Option Fault
  | .fault f => some f
  | .next _ => none
  | .refused _ => none

def refusalOf : Host.Outcome State Fault Refusal → Option Refusal
  | .refused r => some r
  | .next _ => none
  | .fault _ => none

def expTable : Lane → Half := fun k => expCoefDefault.get k
def logTable : Lane → Half := fun k => logCoefDefault.get k

/-! ## WellFormed: an ill-formed term for each check -/

theorem test_wf_accepts_polyE : (CmdFields.mk 2#4 1#2 0#2).wf = true := by decide
theorem test_wf_refuses_reserved_bits : (CmdFields.mk 0#4 0#2 1#2).wf = false := by decide
theorem test_wf_refuses_reserved_operation : (CmdFields.mk 6#4 0#2 0#2).wf = false := by decide
theorem test_wf_refuses_csrc_of_poly : (CmdFields.mk 2#4 3#2 0#2).wf = false := by decide
theorem test_wf_refuses_csrc_of_others : (CmdFields.mk 3#4 1#2 0#2).wf = false := by decide
theorem test_whole_refuses_undriven_cmd : (Presentation.mk none (some 0#128) (some 0#128)).whole = false := by decide
theorem test_whole_refuses_undriven_a : (Presentation.mk (some 0#8) none (some 0#128)).whole = false := by decide
theorem test_whole_refuses_undriven_b : (Presentation.mk (some 0#8) (some 0#128) none).whole = false := by decide

/-! ## Decode: the words of 30_encoding R81, R82, RSV : CSRC : OP, bit by bit -/

theorem test_decode_recipm : decode 0b00000000#8 = .ok .recipm := by decide
theorem test_decode_reciph : decode 0b00000001#8 = .ok .reciph := by decide
theorem test_decode_poly : decode 0b00000010#8 = .ok .poly := by decide
theorem test_decode_polyE : decode 0b00010010#8 = .ok .polyE := by decide
theorem test_decode_polyL : decode 0b00100010#8 = .ok .polyL := by decide
theorem test_decode_split : decode 0b00000011#8 = .ok .split := by decide
theorem test_decode_log : decode 0b00000100#8 = .ok .log := by decide
theorem test_decode_exp : decode 0b00000101#8 = .ok .exp := by decide

/-- V601 to V606. -/
theorem test_decode_reserved :
    decode 0x06#8 = .error .reservedOperation ∧ decode 0x0F#8 = .error .reservedOperation ∧
    decode 0x13#8 = .error .reservedCoefficientSource ∧ decode 0x32#8 = .error .reservedCoefficientSource ∧
    decode 0x40#8 = .error .reservedBits ∧ decode 0xFF#8 = .error .reservedBits := by decide

theorem test_decodeTableWord : decodeTableWord 8 0x22 = some .polyL ∧ decodeTableWord 8 0x32 = none := by decide

/-! ## Constants: each ROM pattern is its literal rounded once (R43, R44, R45) -/

theorem test_constants_are_rounded_literals :
    roundH 141176471 100000000 false = constRomValues.k1 ∧ roundH 47058824 100000000 false = constRomValues.k2 ∧
    roundH 6931471805599453 10000000000000000 false = constRomValues.ln2 ∧
    roundH 14426950408889634 10000000000000000 false = constRomValues.invln2 := by decide +kernel

theorem test_expCoef_is_rounded_literals : expCoefDefault.toList =
    [roundH 1 1 false, roundH 416598916054 10000000000000 false, roundH 500000596046 1000000000000 false,
     roundH 14122662833 10000000000000 false, roundH 100000011921 100000000000 false,
     roundH 833693705499 100000000000000 false, roundH 166665703058 1000000000000 false,
     roundH 195780929062 1000000000000000 false] := by decide +kernel

theorem test_logCoef_is_rounded_literals : logCoefDefault.toList =
    [roundH (-229561495781) 100000000000 false, roundH (-247071170807) 100000000000 false,
     roundH (-568692588806) 100000000000 false, roundH (-165253549814) 1000000000000 false,
     roundH 517591238022 100000000000 false, roundH 844007015228 1000000000000 false,
     roundH 458445882797 100000000000 false, roundH 141278216615 10000000000000 false] := by decide +kernel

/-! ## Commands, one step each on a whole vector -/

/-- Program P1. -/
theorem test_step_recipm : outputsOf (step (presented 0x00#8 0x211F56400000BC003800440040003C00#128 0#128)) =
    some (some 0x5640211F7C00BC004000340038003C00#128, some 0#128) := by decide +kernel

/-- Program P1. -/
theorem test_step_reciph : outputsOf (step (presented 0x01#8 0x211F56400000BC003800440040003C00#128 0#128)) =
    some (some 0x5640211F7C00BC004000340038003C00#128, some 0#128) := by decide +kernel

/-- Program P4, command 1. -/
theorem test_step_poly : outputsOf (step (presented 0x02#8 0xBC003C00358CB58C3000B40034000000#128
      0x0A6A315520453C0015C9380029553C00#128)) =
    some (some 0x35E4416F3DA939A83C883A3B3D233C00#128, some 0#128) := by decide +kernel

/-- Program P4, command 2. -/
theorem test_step_polyE : outputsOf (step (presented 0x12#8 0xBC003C00358CB58C3000B40034000000#128 0#128)) =
    some (some 0x35E4416F3DA939A83C883A3B3D233C00#128, some 0#128) := by decide +kernel

/-- Program P3, command 2. -/
theorem test_step_polyL : outputsOf (step (presented 0x22#8 0x3D003C003FFF3C003FD03E003E003E00#128 0#128)) =
    some (some 0x3352140039B514003988369536953695#128, some 0#128) := by decide +kernel

/-- Program P3, command 1. -/
theorem test_step_split : outputsOf (step (presented 0x03#8 0x490004007BFF400063D03A0042003E00#128 0#128)) =
    some (some 0x3D003C003FFF3C003FD03E003E003E00#128, some 0x0003FFF2000F00010009FFFF00010000#128) := by decide +kernel

/-- Program P2, command 1: a zero lane among positive normals. -/
theorem test_step_log : outputsOf (step (presented 0x04#8 0x00002E66417056404900380040003C00#128 0#128)) =
    some (some 0xFC00C0973C06449E409EB98A398E1400#128, some 0#128) := by decide +kernel

/-- Program P5: the guard, lane by lane. -/
theorem test_step_exp : outputsOf (step (presented 0x05#8 0xFC00C8C0C9083C00CD000000C908C907#128 0#128)) =
    some (some 0x000004EB0000416F00003C00000001A6#128, some 0#128) := by decide +kernel

/-! ## Datapaths: corner cases and worked traces -/

/-- V14, V15, V17, V18, V21, V23 to V27, V29: (x, RECIPM). -/
theorem test_recipm_corners :
    ([(0x63D0#16, 0x1418#16), (0x06A4#16, 0x70D2#16), (0x0001#16, 0xFC00#16), (0x03FF#16, 0x7401#16),
      (0x7400#16, 0x0400#16), (0x77C0#16, 0x0000#16), (0x7800#16, 0x7E00#16), (0x7BFF#16, 0xFC00#16),
      (0x7C00#16, 0xFC00#16), (0xFC00#16, 0x7C00#16), (0xFE00#16, 0x7E00#16)] : List (Half × Half)).all
      (fun v => recipCore constRomValues v.1 3 == v.2) = true := by decide +kernel

/-- The trace of R107 on 3.0. -/
theorem test_reciph_trace :
    recipBias 0x4200#16 = 0xFC00#16 ∧ add16 0x4200#16 0xFC00#16 = 0x3E00#16 ∧
    fma (fneg 0x3788#16) 0x3E00#16 0x3DA6#16 = 0x39A6#16 ∧ recipGuess constRomValues 0x4200#16 = 0x35A6#16 ∧
    fma (fneg 0x35A6#16) 0x4200#16 0x4000#16 = 0x3B87#16 ∧ nrPass constRomValues 0x4200#16 0x35A6#16 = 0x3551#16 ∧
    fma (fneg 0x3551#16) 0x4200#16 0x4000#16 = 0x3C03#16 ∧ nrPass constRomValues 0x4200#16 0x3551#16 = 0x3555#16 ∧
    recipCore constRomValues 0x4200#16 4 = 0x3555#16 := by decide +kernel

/-- V111 to V118: coefficient k alone at x = 2 shows its power. -/
theorem test_poly_index_to_power :
    ([(0, 0x3C00#16), (1, 0x4C00#16), (2, 0x4400#16), (3, 0x5400#16), (4, 0x4000#16), (5, 0x5000#16), (6, 0x4800#16),
      (7, 0x5800#16)] : List (Lane × Half)).all
      (fun v => estrin 0x4000#16 (fun k => if k = v.1 then 0x3C00#16 else 0#16) == v.2) = true := by decide +kernel

/-- V204, V205. -/
theorem test_polyE_values : estrin 0x3590#16 expTable = 0x3DAA#16 ∧ estrin 0xB590#16 expTable = 0x39A6#16 := by
  decide +kernel

/-- V211, V215. -/
theorem test_polyL_values : estrin 0x3FA0#16 logTable = 0x3977#16 ∧ estrin 0x7C00#16 logTable = 0x7C00#16 := by
  decide +kernel

/-- V305, V306, V309, V312, V317. -/
theorem test_split_core_corners :
    splitCore 0x7BFF#16 = ⟨0x3FFF#16, 0x000F#16⟩ ∧ splitCore 0x0400#16 = ⟨0x3C00#16, 0xFFF2#16⟩ ∧
    splitCore 0xC000#16 = ⟨0x3C00#16, 0xFFE1#16⟩ ∧ splitCore 0x8000#16 = ⟨0x3C00#16, 0xFFD1#16⟩ ∧
    splitCore 0x7E00#16 = ⟨0x3E00#16, 0x0010#16⟩ := by decide +kernel

/-- The trace of R166 on 2.71875, and V404. -/
theorem test_log_trace :
    splitCore 0x4170#16 = ⟨0x3D70#16, 0x0001#16⟩ ∧ fma 0x452D#16 0x3D70#16 0xC097#16 = 0x44BE#16 ∧
    fmul 0x3D70#16 0x3D70#16 = 0x3F64#16 ∧ estrin 0x3D70#16 logTable = 0x34FF#16 ∧ cvtS16ToF16 1#16 = 0x3C00#16 ∧
    logCore constRomValues logTable 0x4170#16 = 0x3C06#16 ∧ logCore constRomValues logTable 0x8000#16 = 0xFC00#16 := by
  decide +kernel

/-- The trace of R186 on 1.0, its boundary pair, V523 (a tie) and V515 (a saturating, negative polynomial). -/
theorem test_exp_trace :
    fmul 0x3C00#16 0x3DC5#16 = 0x3DC5#16 ∧ expQuotient constRomValues 0x3C00#16 = 1#16 ∧
    expReduced constRomValues 0x3C00#16 1#16 = 0x34E8#16 ∧ estrin 0x34E8#16 expTable = 0x3D6F#16 ∧
    expRebuild 0x3D6F#16 1#16 = 0x416F#16 ∧ expCore constRomValues expTable 0xC907#16 = 0x01A6#16 ∧
    expCore constRomValues expTable 0xC908#16 = 0x0000#16 ∧ expQuotient constRomValues 0x3C29#16 = 2#16 ∧
    expCore constRomValues expTable 0x758B#16 = 0x44CF#16 := by decide +kernel

/-- A draw stands in every SPLIT lane outside the source domain (R143), and nothing is known of it. -/
theorem test_split_draws : outputsOf (step (presented 0x03#8 (broadcast 0x8000#16) 0#128)) =
    some (some (ofLanes fun i => Config.draw 0 (0 + 2 * i.val)), some (ofLanes fun i => Config.draw 0 (0 + 2 * i.val + 1))) := by
  have h : ∀ i : Lane, splitLane 0 0 i (lane (broadcast 0x8000#16) i) =
      ⟨Config.draw 0 (0 + 2 * i.val), Config.draw 0 (0 + 2 * i.val + 1)⟩ := by
    intro i
    fin_cases i <;> rfl
  show some (some (ofLanes fun i => (splitLane 0 0 i (lane (broadcast 0x8000#16) i)).r),
    some (ofLanes fun i => (splitLane 0 0 i (lane (broadcast 0x8000#16) i)).n)) = _
  simp only [h]

/-! ## Primitives -/

/-- R6: overflow threshold, ties, subnormals and the sign of a result that rounds to zero. -/
theorem test_roundH :
    roundH 65519 1 false = 0x7BFF#16 ∧ roundH 65520 1 false = 0x7C00#16 ∧ roundH 2049 1 false = 0x6800#16 ∧
    roundH 2051 1 false = 0x6802#16 ∧ roundH 1 (2 ^ 25) false = 0x0000#16 ∧ roundH (-1) (2 ^ 25) false = 0x8000#16 ∧
    roundH 3 (2 ^ 25) false = 0x0002#16 ∧ roundH 0 1 true = 0x8000#16 := by decide +kernel

/-- R8, R9: invalid operations and the signs of exact zeros. -/
theorem test_fp_specials :
    fmul 0x7C00#16 0x8000#16 = 0x7E00#16 ∧ fmul 0xFC00#16 0x3C00#16 = 0xFC00#16 ∧ fmul 0x8000#16 0x3C00#16 = 0x8000#16 ∧
    fma 0x7C00#16 0x3C00#16 0xFC00#16 = 0x7E00#16 ∧ fma 0x8000#16 0x3C00#16 0x8000#16 = 0x8000#16 ∧
    fma 0x8000#16 0x3C00#16 0x0000#16 = 0x0000#16 ∧ fma 0x3C00#16 0x3C00#16 0xBC00#16 = 0x0000#16 := by decide +kernel

/-- R13, R16: ties to even, saturation. -/
theorem test_integer_corners :
    cvtF16ToS16 0x3800#16 = 0#16 ∧ cvtF16ToS16 0x3E00#16 = 2#16 ∧ cvtF16ToS16 0x4100#16 = 2#16 ∧
    cvtF16ToS16 0xBE00#16 = 0xFFFE#16 ∧ cvtF16ToS16 0x7BFF#16 = 0x7FFF#16 ∧ cvtF16ToS16 0xFC00#16 = 0x8000#16 ∧
    cvtF16ToS16 0x7E00#16 = 0#16 ∧ qshl16 0x0020#16 10 = 0x7FFF#16 ∧ qadd16 0x8000#16 0xFFFF#16 = 0x8000#16 ∧
    asr16 0xFFFF#16 10 = 0xFFFF#16 ∧ shl16 0xFFF1#16 10 = 0xC400#16 := by decide +kernel

/-- Program P1's serialization of A (R62). -/
theorem test_port_bytes : (toBytes 0x211F56400000BC003800440040003C00#128).toList =
    [0x00#8, 0x3C#8, 0x00#8, 0x40#8, 0x00#8, 0x44#8, 0x00#8, 0x38#8, 0x00#8, 0xBC#8, 0x00#8, 0x00#8, 0x40#8, 0x56#8,
     0x1F#8, 0x21#8] := by decide

/-! ## The machine -/

/-- V601. -/
theorem test_reserved_word_refused : refusalOf (step (moves [reservedMove])) =
    some (.reservedCommand 0x06#8 .reservedOperation) := by decide

/-- V607. -/
theorem test_undriven_cmd_refused :
    refusalOf (step (moves [.command { cmd := none, a := some 0#128, b := some 0#128 }])) = some .portNotWhole := by decide

/-- V608. -/
theorem test_read_before_first_command_faults :
    faultOf (step (moves [.read .y])) = some (.readBeforeFirstCommand .y) := by decide

/-- V609: after a refused first command a read of Y faults. -/
theorem test_refusal_then_read : runMoves State.reset [reservedMove, .read .y] =
    { y := none, n := none, refusalMark := true, faultRecord := some (.readBeforeFirstCommand .y) } := by decide

/-- R235, R236: a fault ends no run; the command after it gives its outputs, beside the record. -/
theorem test_command_after_fault :
    runMoves State.reset [.read .y, .command { cmd := some 0x00#8, a := some (broadcast 0x4000#16), b := some 0#128 }] =
    { y := some (broadcast 0x3800#16), n := some 0#128, refusalMark := false,
      faultRecord := some (.readBeforeFirstCommand .y) } := by decide +kernel

/-- R201: a reserved word after a fault is refused and marked, and the first fault stays recorded. -/
theorem test_refusal_after_fault : runMoves State.reset [.read .n, reservedMove, .read .y] =
    { y := none, n := none, refusalMark := true, faultRecord := some (.readBeforeFirstCommand .n) } := by decide

/-- R230: after a refusal and a fault, reset leaves the mark clear and the record empty, and a command runs. -/
theorem test_reset_starts_over :
    runMoves State.reset [reservedMove, .read .y, .reset,
      .command { cmd := some 0x00#8, a := some (broadcast 0x4000#16), b := some 0#128 }] =
    { y := some (broadcast 0x3800#16), n := some 0#128, refusalMark := false, faultRecord := none } := by decide +kernel

/-- R235: no sampled port is held across reset. -/
theorem test_reset_holds_no_port : (stepRecorded { moves [.reset] with ports := (loadPresentation 5) }).ports =
    { cmd := none, a := none, b := none } := by decide

/-- V610: RECIPH on all 2.0, then a reserved word. -/
theorem test_run_ends_at_refusal :
    runMoves State.reset [.command { cmd := some 0x01#8, a := some (broadcast 0x4000#16), b := some 0#128 },
      .command { cmd := some 0x07#8, a := some 0#128, b := some 0#128 }] =
    { y := some (broadcast 0x3800#16), n := some 0#128, refusalMark := true, faultRecord := none } := by decide +kernel

/-- V611: a command writes both ports. -/
theorem test_both_ports_written :
    runMoves State.reset [.command { cmd := some 0x03#8, a := some (broadcast 0x4200#16), b := some 0#128 },
      .command { cmd := some 0x00#8, a := some (broadcast 0x4000#16), b := some 0#128 }] =
    { y := some (broadcast 0x3800#16), n := some 0#128, refusalMark := false, faultRecord := none } := by decide +kernel

/-- log 8: a loaded word runs as the first step after reset. -/
theorem test_loaded_word_runs :
    outputsOf (step (State.reset.withFetchWord 8 0x05)) = some (some (broadcast 0x416F#16), some 0#128) := by
  decide +kernel

/-- R85: mnemonics are case-insensitive and a comment is no part of the line. -/
theorem test_parse_poly : parseLine ['p', 'o', 'l', 'y', ' ', ' ', 'v', '1', ',', ' ', 'v', '0', ',', 'v', '5', ' ', ';', ' ', 'x'] =
    some { instr := .poly, vd := ['v', '1'], vn := none, va := ['v', '0'], vb := some ['v', '5'] } := by decide

/-- R85: SPLIT names Y's and N's destinations; a missing comma is no line. -/
theorem test_parse_split : parseLine ['S', 'P', 'L', 'I', 'T', ' ', 'd', ',', 'n', ',', 'a'] =
      some { instr := .split, vd := ['d'], vn := some ['n'], va := ['a'], vb := none } ∧
    parseLine ['L', 'O', 'G', ' ', 'd', ' ', 'a'] = none := by decide

/-- R234's table. -/
theorem test_dependent_chains : Instr.all.map dependentChain = [14, 16, 3, 3, 3, 4, 9, 9] := by decide

/-! ## Witnesses: for each statement with hypotheses, a state and operands that meet them -/

/-- For the completion statements of the eight commands, `EveryCommandCompletesAndWritesOnlyTheOutputs`,
`PolyWithATableOnBIsTheTableCommand` and `LanesOutsideTheDomainAreFreshDraws`: operands with an in-domain and an
out-of-domain lane. -/
theorem test_witness_operands : (ready 0x3C008000#128 0#128).operandsWhole 0x3C008000#128 0#128 ∧
    splitInDomain (lane 0x3C008000#128 0) = false ∧ splitInDomain (lane 0x3C008000#128 1) = true ∧
    logInDomain (lane 0x3C008000#128 0) = true ∧ logInDomain 0xBC00#16 = false := ⟨⟨rfl, rfl⟩, by decide⟩

/-- LogOfZeroIsMinusInfinity, LogIsSplitThenPolyL, ExpGuardAppliesExactlyBelow: a zero lane, a positive normal lane, and
a guarded and an unguarded lane. -/
theorem test_witness_rom_and_operands : (ready 0xC908C9073C008000#128 0#128).romAsBuilt ∧
    (ready 0xC908C9073C008000#128 0#128).operandsWhole 0xC908C9073C008000#128 0#128 ∧
    isZero (lane 0xC908C9073C008000#128 0) = true ∧ isPositiveNormal (lane 0xC908C9073C008000#128 1) = true ∧
    belowGuard (expQuotient constRomValues (lane 0xC908C9073C008000#128 2)) = false ∧
    belowGuard (expQuotient constRomValues (lane 0xC908C9073C008000#128 3)) = true :=
  ⟨rfl, ⟨rfl, rfl⟩, by decide +kernel⟩

/-- LanesAreIndependent: two states that agree on lane 0 of A only. -/
theorem test_witness_LanesAreIndependent : (ready 0x3C00#128 0#128).operandsWhole 0x3C00#128 0#128 ∧
    ({ ready 0x40003C00#128 1#128 with drawCount := 5 } : State).operandsWhole 0x40003C00#128 1#128 ∧
    (ready 0x3C00#128 0#128).sameRom { ready 0x40003C00#128 1#128 with drawCount := 5 } ∧
    lane 0x3C00#128 0 = lane 0x40003C00#128 0 ∧ laneIsFixed .split (lane 0x3C00#128 0) = true ∧
    laneIsFixed .log (lane 0x3C00#128 0) = true :=
  ⟨⟨rfl, rfl⟩, ⟨rfl, rfl⟩, ⟨rfl, rfl, rfl⟩, by decide⟩

/-- DecodeAndEncodeAgree, and ReservedWordsAreTheFourKinds: a word of each kind. -/
theorem test_witness_words : decode 0x22#8 = .ok .polyL ∧ reservedWord 0x40#8 ∧ reservedWord 0x06#8 ∧
    reservedWord 0x32#8 ∧ reservedWord 0x13#8 := by unfold reservedWord; decide

/-- ReciprocalIsSignAntisymmetric: an input of each clause, at the ends of its range. -/
theorem test_witness_ReciprocalIsSignAntisymmetric :
    (isZero 0x0001#16 = false ∧ isNaN 0x0001#16 = false) ∧ (isZero 0xFC00#16 = false ∧ isNaN 0xFC00#16 = false) ∧
    isZero 0x8000#16 = true ∧ isNaN 0x7C01#16 = true ∧ isNaN 0xFFFF#16 = true := by decide

/-- ReciprocalGuessIsWithinSixPercent, ReciprocalErrorIsBoundedOnOneBinade, ReciprocalOfHugeInputsIsNotFinite. -/
theorem test_witness_reciprocal_ranges :
    (signOf 0x6FFF#16 = false ∧ 1 ≤ expOf 0x6FFF#16 ∧ expOf 0x6FFF#16 ≤ 27) ∧
    (signOf 0x3FFF#16 = false ∧ expOf 0x3FFF#16 = 15) ∧ expOf 0x7BFF#16 = 30 := by decide

/-- PolynomialPropagatesNaN (NaN argument; V123, NaN coefficient) and PolynomialAtZeroIsItsConstantTerm. -/
theorem test_witness_polynomial : isNaN 0x7E00#16 = true ∧
    (∃ k, isNaN ((fun k : Lane => if k = 7 then 0x7E00#16 else 0x3C00#16) k) = true) ∧
    isZero 0x8000#16 = true ∧ (∀ k, isFinite (logTable k) = true) ∧ isZero (logTable 0) = false := by decide

/-- SplitCoreByInputClass: an input of each clause. -/
theorem test_witness_SplitCoreByInputClass : isPositiveNormal 0x0400#16 = true ∧ isPositiveNormal 0x7BFF#16 = true ∧
    (isPositiveNormal 0x03FF#16 = false ∧ isFinite 0x03FF#16 = true) ∧
    (isPositiveNormal 0xFBFF#16 = false ∧ isFinite 0xFBFF#16 = true) := by decide

/-- ExpRebuildMultipliesByAPowerOfTwo (both ends of the range), ExpOfNaNAndOfTinyInputs. -/
theorem test_witness_exp : (1 ≤ expOf 0x3D6F#16 ∧ expOf 0x3D6F#16 ≤ 30 ∧ (expOf 0x3D6F#16 : Int) + asS16 0xFFF2#16 = 1 ∧
    (expOf 0x3D6F#16 : Int) + asS16 15#16 = 30) ∧ isNaN 0x7C01#16 = true ∧ expOf 0x83FF#16 = 0 := by decide

/-- RoundHIsNearestTiesToEven: an exact zero, the overflow threshold, the largest number below it. -/
theorem test_witness_RoundHIsNearestTiesToEven : (0 : Nat) < 1 ∧ 65520 * 1 ≤ (-65520 : Int).natAbs ∧
    ((65519 : Int) ≠ 0 ∧ (65519 : Int).natAbs < 65520 * 1) ∧ isFinite 0x7BFF#16 = true := by decide

/-- FloatingPointNaNsAreTheDefault: each cause. -/
theorem test_witness_FloatingPointNaNsAreTheDefault : isNaN 0xFE01#16 = true ∧
    (isInf 0xFC00#16 = true ∧ isZero 0x8000#16 = true) ∧
    (isInf 0x7C00#16 = true ∧ signOf 0xFC00#16 ≠ (signOf 0x7C00#16 ^^ signOf 0x3C00#16)) := by decide

/-- ComparisonPredicates, ToIntegerRoundsToNearestAndClamps, FromIntegerIsExactUpTo2048, IntegerPrimitivesSaturate: an
input of each clause. -/
theorem test_witness_primitives : isNaN 0xFFFF#16 = true ∧ isInf 0xFC00#16 = true ∧ isFinite 0xFBFF#16 = true ∧
    (-2048 ≤ asS16 0xF800#16 ∧ asS16 0xF800#16 ≤ 2048) ∧ (-32769 : Int) < -32768 ∧ (32767 : Int) < 32768 ∧
    ((-32768 : Int) ≤ 32767) := by decide

/-- StepKeepsTheInvariant, RecordedStepKeepsTheInvariant: a state that meets the invariant, and its step. -/
theorem test_witness_invariant : (presented 0x05#8 0#128 0#128).Inv ∧
    ∃ t, step (presented 0x05#8 0#128 0#128) = .next t :=
  ⟨⟨rfl, rfl, .inl rfl⟩, _, rfl⟩

/-- The same two: a state whose outputs are those of the command at its ports (RECIPM of 2.0), and a read to come. -/
def answered : State :=
  { moves [.read .y] with
    ports := { cmd := some 0x00#8, a := some (broadcast 0x4000#16), b := some 0#128 },
    y := some (broadcast 0x3800#16), n := some 0#128 }

theorem test_answered : answered.writeOutputs
    (ofLanes fun i => recipCore answered.constRom (lane (broadcast 0x4000#16) i) 3) (broadcast 0x0000#16) = answered := by
  decide +kernel

theorem test_witness_invariant_with_outputs : answered.Inv ∧ ∃ t, step answered = .next t :=
  ⟨⟨rfl, rfl, .inr ⟨.recipm, broadcast 0x4000#16, answered, by decide, rfl, congrArg Host.Outcome.next test_answered,
    fun _ _ => ⟨rfl, rfl⟩⟩⟩, _, rfl⟩

/-- StepRunsTheDecodedCommand. -/
theorem test_witness_StepRunsTheDecodedCommand : (presented 0x05#8 0#128 0#128).notRefused ∧
    (presented 0x05#8 0#128 0#128).pending = [.command { cmd := some 0x05#8, a := some 0#128, b := some 0#128 }] ∧
    decode 0x05#8 = .ok .exp := ⟨rfl, rfl, by decide⟩

/-- ReservedWordIsRefusedAndMarked. -/
theorem test_witness_ReservedWordIsRefusedAndMarked : (moves [reservedMove]).notRefused ∧
    (moves [reservedMove]).pending = reservedMove :: [] ∧ reservedWord 0x06#8 :=
  ⟨rfl, rfl, by unfold reservedWord; decide⟩

/-- RefusalMarkStaysForTheRun. -/
theorem test_witness_RefusalMarkStaysForTheRun :
    ({ presented 0x05#8 0#128 0#128 with refusalMark := true } : State).refusalMark = true ∧
    (∀ rest, ({ presented 0x05#8 0#128 0#128 with refusalMark := true } : State).pending ≠ .reset :: rest) :=
  ⟨rfl, fun _ h => (by injection h with h; cases h)⟩

/-- PartialPresentationIsRefused. -/
theorem test_witness_PartialPresentationIsRefused :
    (moves [.command { cmd := some 0x00#8, a := none, b := some 0#128 }]).pending =
      [.command { cmd := some 0x00#8, a := none, b := some 0#128 }] ∧
    (Presentation.mk (some 0x00#8) none (some 0#128)).whole = false := ⟨rfl, rfl⟩

/-- OutputsHoldUntilTheNextAcceptedCommand: a read with and without a value, a state whose next move is no command, and
an accepted command. -/
theorem test_witness_OutputsHold : (moves [.read .n]).output .n = none ∧
    ({ moves [.read .n] with n := some 1#128 } : State).output .n = some 1#128 ∧
    (∀ p rest, (moves [.read .n]).pending ≠ .command p :: rest) ∧ (∀ rest, (moves [.read .n]).pending ≠ .reset :: rest) ∧
    accepted { cmd := some 0x05#8, a := some 0#128, b := some 0#128 } :=
  ⟨rfl, rfl, fun _ _ h => (by injection h with h; cases h), fun _ h => (by injection h with h; cases h),
    ⟨0x05#8, .exp, rfl, by decide, rfl⟩⟩

/-- RecordedFaultIsNeverCleared: a read without a value, a recorded fault before a move that is no reset, and a reset. -/
theorem test_witness_RecordedFaultIsNeverCleared : (moves [.read .y]).output .y = none ∧
    (stepRecorded (moves [.read .y, reservedMove])).faultRecord = some (.readBeforeFirstCommand .y) ∧
    (∀ rest, (stepRecorded (moves [.read .y, reservedMove])).pending ≠ .reset :: rest) ∧
    (moves [.reset]).pending = .reset :: [] :=
  ⟨rfl, by decide, fun _ h => (by injection h with h; cases h), rfl⟩

/-- FaultRecordHindersNoMove: a step of each of the three outcomes. -/
theorem test_witness_FaultRecordHindersNoMove : (∃ t, step (moves [.reset]) = .next t) ∧
    step (moves [.read .y]) = .fault (.readBeforeFirstCommand .y) ∧
    step (moves [reservedMove]) = .refused (.reservedCommand 0x06#8 .reservedOperation) := ⟨⟨_, rfl⟩, rfl, rfl⟩

/-- ResetMoveClearsOutputsAndMark: a reset, and a command after it. -/
theorem test_witness_ResetMove :
    (moves [.reset, .command { cmd := some 0x05#8, a := some 0#128, b := some 0#128 }]).pending =
      .reset :: [.command { cmd := some 0x05#8, a := some 0#128, b := some 0#128 }] ∧
    accepted { cmd := some 0x05#8, a := some 0#128, b := some 0#128 } := ⟨rfl, ⟨0x05#8, .exp, rfl, by decide, rfl⟩⟩

/-- CommandOrderDoesNotMatter. -/
theorem test_witness_CommandOrderDoesNotMatter :
    (Presentation.mk (some 0x03#8) (some 0x3C00#128) (some 0#128)).whole = true ∧
    (Presentation.mk (some 0x04#8) (some 0x8000#128) (some 1#128)).whole = true ∧
    laneIsFixed .split (lane 0x3C00#128 0) = true ∧ laneIsFixed .log (lane 0x8000#128 0) = true := by decide

/-- EndOfRunIsTheLastCommandAlone: a run of two commands. -/
theorem test_witness_EndOfRun : State.reset.notRefused ∧
    (∀ p ∈ [Presentation.mk (some 0x00#8) (some 0#128) (some 0#128)], accepted p) ∧ decode 0x03#8 = .ok .split ∧
    laneIsFixed .split (lane 0x3C00#128 0) = true :=
  ⟨rfl, fun p hp => by simp only [List.mem_singleton] at hp; subst hp; exact ⟨0x00#8, .recipm, rfl, by decide, rfl⟩,
    by decide, by decide⟩

/-- R67: a refusal of instance 0 is recorded in it alone, and instance 1 goes on. -/
theorem test_refusal_stays_in_its_instance :
    (stepInstance 1 (stepInstance 0 [moves [reservedMove], presented 0x05#8 (broadcast 0x3C00#16) 0#128])).map
      (fun s => (s.refusalMark, s.y)) = [(true, none), (false, some (broadcast 0x416F#16))] := by decide +kernel

/-- R52, R67: SPLIT of a zero in two instances built together: their lanes are draws of two sources. -/
theorem test_instances_draw_from_two_sources (x y : Half) (hx : splitInDomain x = false) (hy : splitInDomain y = false) :
    (buildInstances 0 [(expCoefDefault, logCoefDefault), (expCoefDefault, logCoefDefault)]).map
      (fun s => (splitLane s.drawSource s.drawCount 0 (if s.drawSource = 0 then x else y)).r) =
    [Config.draw 0 0, Config.draw 1 0] := by
  simp [buildInstances, State.build, splitLane, hx, hy]

/-- InstancesShareNothing and InstancesDrawApart: an instance of two, and two instances with sources of their own. -/
theorem test_witness_instances :
    (buildInstances 0 [(expCoefDefault, logCoefDefault), (expCoefDefault, logCoefDefault)])[0]? = some State.reset ∧
    (0 : Nat) ≠ 1 ∧ drawsApart (buildInstances 0 [(expCoefDefault, logCoefDefault), (expCoefDefault, logCoefDefault)]) :=
  ⟨rfl, by decide, by unfold drawsApart; decide⟩

/-- AssemblerLineRunsItsCommand: a SPLIT line with both destinations. -/
theorem test_witness_AssemblerLine : State.reset.notRefused ∧
    HostVectors.value [(['a'], 0x4200#128)] ['a'] = some 0x4200#128 ∧ (some ['n'] : Option Text) ≠ some ['d'] ∧
    parseLine ['s', 'p', 'l', 'i', 't', ' ', 'd', ',', 'n', ',', 'a'] =
      some { instr := .split, vd := ['d'], vn := some ['n'], va := ['a'], vb := none } :=
  ⟨rfl, by decide⟩

end Sys2Proof.Tests
end

/-! SUPPORT. The signed view of a lane (R3) and the integer primitives (R15, R16). -/

namespace Sys2Proof.Machine

theorem asS16_ge (u : Half) : -32768 ≤ asS16 u := BitVec.le_toInt u

theorem asS16_le (u : Half) : asS16 u ≤ 32767 := Int.le_of_lt_add_one (BitVec.toInt_lt (x := u))

/-- The signed view of a wrapped integer is its balanced remainder (R3). -/
theorem asS16_asU16 (v : Int) : asS16 (asU16 v) = v.bmod 65536 := BitVec.toInt_ofInt v

theorem asS16_asU16_modEq (v : Int) : asS16 (asU16 v) ≡ v [ZMOD 65536] := by
  rw [asS16_asU16]
  exact Int.bmod_emod

/-- An integer of 16 bits is its own signed view. -/
theorem asS16_asU16_of_range {v : Int} (hlo : -32768 ≤ v) (hhi : v ≤ 32767) : asS16 (asU16 v) = v := by
  rw [asS16_asU16]
  exact Int.bmod_eq_of_le (by omega) (by omega)

theorem ssat16_ge (v : Int) : -32768 ≤ ssat16 v := by unfold ssat16; omega

theorem ssat16_le (v : Int) : ssat16 v ≤ 32767 := by unfold ssat16; omega

/-- A saturated integer loses nothing in a lane (R16). -/
@[simp] theorem asS16_asU16_ssat16 (v : Int) : asS16 (asU16 (ssat16 v)) = ssat16 v :=
  asS16_asU16_of_range (ssat16_ge v) (ssat16_le v)

/-- The arithmetic shift is the floor of the quotient: no quotient of a 16-bit integer leaves the range (R15). -/
theorem asS16_asr16 (a : Half) (k : Nat) : asS16 (asr16 a k) = asS16 a / 2 ^ k := by
  have hpos : (0 : Int) < 2 ^ k := by positivity
  have hone : (1 : Int) ≤ 2 ^ k := hpos
  have hlo := asS16_ge a
  have hhi := asS16_le a
  unfold asr16
  rw [Int.fdiv_eq_ediv_of_nonneg _ hpos.le]
  apply asS16_asU16_of_range
  · exact (Int.le_ediv_iff_mul_le hpos).2 (by nlinarith)
  · exact Int.lt_add_one_iff.1 ((Int.ediv_lt_iff_lt_mul hpos).2 (by nlinarith))

/-- Settles O34: sums, differences and left shifts are wrapped exact results, and the right shift is the floor. -/
theorem integerPrimitivesWrap : Obligations.IntegerPrimitivesWrap := by
  intro a b k
  have hpos : (0 : Int) < 2 ^ k := by positivity
  refine ⟨asS16_asU16_modEq _, asS16_asU16_modEq _, asS16_asU16_modEq _, ?_, ?_, fun j _ => BitVec.getLsbD_and⟩
  · rw [asS16_asr16]
    exact Int.ediv_mul_le _ hpos.ne'
  · rw [asS16_asr16]
    exact Int.lt_ediv_add_one_mul_self _ hpos

/-- Settles O35: the clamp by its three ranges, and the saturating primitives as clamps that lose nothing in a lane. -/
theorem integerPrimitivesSaturate : Obligations.IntegerPrimitivesSaturate := by
  refine ⟨fun v => ⟨?_, ?_, ?_⟩, fun a b k => ⟨asS16_asU16_ssat16 _, asS16_asU16_ssat16 _⟩⟩ <;>
    (unfold ssat16; omega)

/-! The classes of a pattern by its fields (R5), and the value of a finite one. -/

theorem isZero_iff (h : Half) : isZero h = true ↔ expOf h = 0 ∧ manOf h = 0 := by
  unfold isZero classOf
  split_ifs <;> simp_all

theorem isInf_iff (h : Half) : isInf h = true ↔ expOf h = 31 ∧ manOf h = 0 := by
  unfold isInf classOf
  split_ifs <;> simp_all

theorem isNaN_iff (h : Half) : isNaN h = true ↔ expOf h = 31 ∧ manOf h ≠ 0 := by
  unfold isNaN classOf
  split_ifs <;> simp_all

theorem isFinite_iff (h : Half) : isFinite h = true ↔ expOf h < 31 := decide_eq_true_iff

/-- Only the zeros have no magnitude. -/
theorem magUnits_eq_zero_iff (h : Half) : magUnits h = 0 ↔ isZero h = true := by
  rw [isZero_iff]
  unfold magUnits
  split_ifs with he <;> simp [he]

theorem valueUnits_of_signOf_true {h : Half} (hs : signOf h = true) : valueUnits h = -(magUnits h : Int) := by
  simp [valueUnits, hs]

theorem valueUnits_of_signOf_false {h : Half} (hs : signOf h = false) : valueUnits h = magUnits h := by
  simp [valueUnits, hs]

theorem valueUnits_eq_zero_iff (h : Half) : valueUnits h = 0 ↔ isZero h = true := by
  rw [← magUnits_eq_zero_iff]
  unfold valueUnits
  split <;> omega

theorem valueUnits_neg_iff (h : Half) : valueUnits h < 0 ↔ signOf h = true ∧ isZero h = false := by
  rw [← Bool.not_eq_true, ← magUnits_eq_zero_iff]
  cases hs : signOf h
  · rw [valueUnits_of_signOf_false hs]
    simp
  · rw [valueUnits_of_signOf_true hs]
    simp [Nat.pos_iff_ne_zero]

/-- EQZ looks at the exponent and the mantissa together: it finds the two zeros (R11). -/
theorem eqz_eq_isZero (a : Half) : eqz a = isZero a := by
  rw [Bool.eq_iff_iff, isZero_iff, expOf_eq, manOf_eq, eqz, beq_iff_eq, BitVec.toNat_eq, BitVec.extractLsb'_toNat]
  simp only [Nat.shiftRight_zero, BitVec.toNat_ofNat]
  omega

theorem ltz_iff (a : Half) : ltz a = true ↔ signOf a = true ∧ isZero a = false ∧ isNaN a = false := by
  simp [ltz, and_assoc]

/-- A pattern is finite, an infinity or a NaN (R5). -/
theorem class_trichotomy (a : Half) : isFinite a = true ∨ isInf a = true ∨ isNaN a = true := by
  have := expOf_lt a
  rw [isFinite_iff, isInf_iff, isNaN_iff]
  omega

theorem isFinite_of_isZero {a : Half} (h : isZero a = true) : isFinite a = true := by
  rw [isZero_iff] at h
  rw [isFinite_iff]
  omega

theorem isNaN_eq_false_of_isFinite {a : Half} (h : isFinite a = true) : isNaN a = false := by
  rw [isFinite_iff] at h
  rw [← Bool.not_eq_true, isNaN_iff]
  omega

theorem isInf_eq_false_of_isFinite {a : Half} (h : isFinite a = true) : isInf a = false := by
  rw [isFinite_iff] at h
  rw [← Bool.not_eq_true, isInf_iff]
  omega

theorem isNaN_eq_false_of_isInf {a : Half} (h : isInf a = true) : isNaN a = false := by
  rw [isInf_iff] at h
  rw [← Bool.not_eq_true, isNaN_iff]
  omega

theorem isZero_eq_false_of_isInf {a : Half} (h : isInf a = true) : isZero a = false := by
  rw [isInf_iff] at h
  rw [← Bool.not_eq_true, isZero_iff]
  omega

theorem isZero_eq_false_of_isNaN {a : Half} (h : isNaN a = true) : isZero a = false := by
  rw [isNaN_iff] at h
  rw [← Bool.not_eq_true, isZero_iff]
  omega

/-- LTZ finds the negative finite values and -inf (R11). -/
theorem ltz_iff_value (a : Half) :
    ltz a = true ↔ (isFinite a = true ∧ valueUnits a < 0) ∨ (isInf a = true ∧ signOf a = true) := by
  rw [ltz_iff, valueUnits_neg_iff]
  constructor
  · rintro ⟨hs, hz, hn⟩
    rcases class_trichotomy a with hf | hi | hnan
    · exact .inl ⟨hf, hs, hz⟩
    · exact .inr ⟨hi, hs⟩
    · simp [hn] at hnan
  · rintro (⟨hf, hs, hz⟩ | ⟨hi, hs⟩)
    · exact ⟨hs, hz, isNaN_eq_false_of_isFinite hf⟩
    · exact ⟨hs, isZero_eq_false_of_isInf hi, isNaN_eq_false_of_isInf hi⟩

/-- Settles O31: EQZ is the class of the zeros, and LTZ is the sign where it is neither a zero's nor a NaN's. -/
theorem comparisonPredicates : Obligations.ComparisonPredicates := by
  intro a
  refine ⟨beq_iff_eq, ?_, fun hn => ⟨?_, ?_⟩, ltz_iff a, ltz_iff_value a⟩
  · rw [eqz_eq_isZero, valueUnits_eq_zero_iff]
    exact ⟨fun h => ⟨isFinite_of_isZero h, h⟩, And.right⟩
  · rw [eqz_eq_isZero]
    exact isZero_eq_false_of_isNaN hn
  · simp [ltz, hn]

/-! The rounding of a quotient to an integer: nearest, ties to even. -/

/-- How far `k` is from num / den, as a count of 1 / den. -/
def quotientGap (num den k : Nat) : Nat := ((num : Int) - (k * den : Nat)).natAbs

/-- Counting in quanta of size `q` scales the denominator. -/
theorem quotientGap_mul (num den k q : Nat) : quotientGap num den (k * q) = quotientGap num (den * q) k := by
  unfold quotientGap
  rw [mul_assoc, mul_comm q]

/-- Below the exact quotient, the gap grows downwards. -/
theorem quotientGap_lt {num den k den' k' : Nat} (hlt : k * den < k' * den') (hle : k' * den' ≤ num) :
    quotientGap num den' k' < quotientGap num den k := by
  unfold quotientGap
  omega

/-- Half a unit away from the exact quotient, the rounded one is even. -/
theorem roundNearestEven_even_of_half {num den : Nat} (hd : 0 < den)
    (h : 2 * quotientGap num den (roundNearestEven num den) = den) : roundNearestEven num den % 2 = 0 := by
  have hq := Nat.div_add_mod' num den
  have hr := Nat.mod_lt num hd
  refine roundNearestEven_tie num den ?_
  have hcases : roundNearestEven num den = num / den ∨ roundNearestEven num den = num / den + 1 := by
    unfold roundNearestEven
    dsimp only
    split_ifs <;> simp
  unfold quotientGap at h
  obtain he | he := hcases
  · rw [he] at h
    omega
  · rw [he, Nat.add_mul, one_mul] at h
    omega

/-- No integer is nearer to the quotient than the rounded one, which is even where another is as near. -/
theorem roundNearestEven_nearest {num den : Nat} (hd : 0 < den) (k : Nat) :
    quotientGap num den (roundNearestEven num den) ≤ quotientGap num den k ∧
      (quotientGap num den (roundNearestEven num den) = quotientGap num den k →
        k ≠ roundNearestEven num den → roundNearestEven num den % 2 = 0) := by
  obtain ⟨hlo, hhi⟩ := roundNearestEven_near num den hd
  have heven := roundNearestEven_even_of_half (num := num) hd
  generalize roundNearestEven num den = n at *
  unfold quotientGap at *
  obtain hlt | rfl | hgt := lt_trichotomy k n
  · have hstep : (k + 1) * den ≤ n * den := Nat.mul_le_mul_right _ hlt
    rw [Nat.add_mul, one_mul] at hstep
    exact ⟨by omega, fun heq _ => heven (by omega)⟩
  · exact ⟨le_rfl, fun _ hne => absurd rfl hne⟩
  · have hstep : (n + 1) * den ≤ k * den := Nat.mul_le_mul_right _ hgt
    rw [Nat.add_mul, one_mul] at hstep
    exact ⟨by omega, fun heq _ => heven (by omega)⟩

/-! `RoundH` (R6). In units of 2^-24 the quantum of the binade is `2 ^ roundShift`; the result is a number of quanta. -/

/-- The exponent of the quantum of `roundMagnitude`: 0 below and in the lowest binade, one more in each binade above. -/
def roundShift (num den : Nat) : Nat := Nat.log2 (num * unitDen / den) - 10

/-- The number of quanta that `roundMagnitude` rounds to. -/
def roundQuanta (num den : Nat) : Nat := roundNearestEven (num * unitDen) (den * 2 ^ roundShift num den)

/-- From the least normal on, the exact number is at least 1024 quanta. -/
theorem roundShift_lower {num den : Nat} (hl : 10 ≤ Nat.log2 (num * unitDen / den)) :
    1024 * (den * 2 ^ roundShift num den) ≤ num * unitDen := by
  unfold roundShift
  generalize hx : num * unitDen / den = x at *
  have hx0 : x ≠ 0 := by rintro rfl; simp at hl
  have hpow : 2 ^ 10 * 2 ^ (x.log2 - 10) = 2 ^ x.log2 := by rw [← pow_add]; congr 1; omega
  calc 1024 * (den * 2 ^ (x.log2 - 10)) = 2 ^ x.log2 * den := by rw [← hpow]; ring
    _ ≤ x * den := Nat.mul_le_mul_right _ (Nat.log2_self_le hx0)
    _ ≤ num * unitDen := hx ▸ Nat.div_mul_le_self _ _

/-- The exact number is less than 2048 quanta. -/
theorem roundShift_upper {num den : Nat} (hd : 0 < den) :
    num * unitDen < 2048 * (den * 2 ^ roundShift num den) := by
  unfold roundShift
  have hlt : num * unitDen / den < 2048 * 2 ^ ((num * unitDen / den).log2 - 10) :=
    calc num * unitDen / den < 2 ^ ((num * unitDen / den).log2 + 1) := Nat.lt_log2_self
      _ ≤ 2 ^ (11 + ((num * unitDen / den).log2 - 10)) := Nat.pow_le_pow_right (by omega) (by omega)
      _ = _ := by rw [pow_add]; rfl
  calc num * unitDen < 2048 * 2 ^ ((num * unitDen / den).log2 - 10) * den := (Nat.div_lt_iff_lt_mul hd).1 hlt
    _ = _ := by ring

theorem roundQuanta_le {num den : Nat} (hd : 0 < den) : roundQuanta num den ≤ 2048 :=
  roundNearestEven_le (by positivity) (roundShift_upper hd).le

theorem roundQuanta_ge {num den : Nat} (hd : 0 < den) (hl : 10 ≤ Nat.log2 (num * unitDen / den)) :
    1024 ≤ roundQuanta num den := by
  by_contra hc
  have hlo := roundShift_lower hl
  have hnear := (roundNearestEven_near (num * unitDen) (den * 2 ^ roundShift num den) (by positivity)).2
  have hn : (roundQuanta num den + 1) * (den * 2 ^ roundShift num den) ≤ 1024 * (den * 2 ^ roundShift num den) :=
    Nat.mul_le_mul_right _ (by omega)
  have hpos : 0 < den * 2 ^ roundShift num den := by positivity
  unfold roundQuanta at *
  rw [Nat.add_mul, one_mul] at hn
  omega

/-- Above the lowest quantum, the quanta fill a binade. -/
theorem roundShift_eq_zero_or {num den : Nat} (hd : 0 < den) :
    roundShift num den = 0 ∨ 1024 ≤ roundQuanta num den := by
  by_cases hl : 10 ≤ Nat.log2 (num * unitDen / den)
  · exact .inr (roundQuanta_ge hd hl)
  · exact .inl (by unfold roundShift; omega)

/-- Below the overflow threshold the pattern is the quanta above the lower binades' patterns, 1024 a binade (R6); a
number of quanta that is rounded up to the next binade needs no case of its own. -/
theorem roundMagnitude_eq {num den : Nat} (hd : 0 < den) (hlt : num < 65520 * den) :
    roundMagnitude num den = roundShift num den * 1024 + roundQuanta num den := by
  have hge := roundQuanta_ge hd (num := num)
  unfold roundMagnitude
  rw [if_neg (by omega)]
  unfold roundQuanta roundShift at *
  dsimp only
  split_ifs with hl hn
  · rw [show (num * unitDen / den).log2 - 10 = 0 by omega]
    simp
  · omega
  · have := hge (by omega)
    omega

/-- Below the overflow threshold there are 30 quanta, 2^-24 to 2^5 (R6). -/
theorem roundShift_le {num den : Nat} (hlt : num < 65520 * den) : roundShift num den ≤ 29 := by
  by_contra hc
  have hlo : 1024 * (den * 2 ^ roundShift num den) ≤ num * unitDen :=
    roundShift_lower (by unfold roundShift at hc; omega)
  have hpow : den * 2 ^ 30 ≤ den * 2 ^ roundShift num den :=
    Nat.mul_le_mul_left _ (Nat.pow_le_pow_right (by omega) (by omega))
  simp only [unitDen] at hlo
  omega

/-- In the top binade a number below the overflow threshold is not rounded up to 2^16 (R6). -/
theorem roundQuanta_ne_of_top {num den : Nat} (hd : 0 < den) (hlt : num < 65520 * den)
    (htop : roundShift num den = 29) : roundQuanta num den ≠ 2048 := by
  intro h
  have hnear := (roundNearestEven_near (num * unitDen) (den * 2 ^ roundShift num den) (by positivity)).1
  rw [← roundQuanta, h, htop] at hnear
  simp only [unitDen] at hnear
  omega

/-- Below the overflow threshold the pattern is a finite one. -/
theorem roundMagnitude_lt {num den : Nat} (hd : 0 < den) (hlt : num < 65520 * den) :
    roundMagnitude num den < 0x7C00 := by
  have hshift := roundShift_le hlt
  have hquanta := roundQuanta_le hd (num := num)
  have htop := roundQuanta_ne_of_top hd hlt
  rw [roundMagnitude_eq hd hlt]
  omega

theorem roundMagnitude_of_ge {num den : Nat} (h : 65520 * den ≤ num) : roundMagnitude num den = 0x7C00 := if_pos h

theorem roundMagnitude_le {num den : Nat} (hd : 0 < den) : roundMagnitude num den ≤ 0x7C00 := by
  by_cases h : 65520 * den ≤ num
  · exact (roundMagnitude_of_ge h).le
  · exact (roundMagnitude_lt hd (by omega)).le

/-- The magnitude of the pattern that lies `n` quanta `2 ^ k` above the lower binades' patterns. -/
theorem magUnits_withSign (s : Bool) {k n : Nat} (hn : n ≤ 2048) (hk : k = 0 ∨ 1024 ≤ n)
    (hlt : k * 1024 + n < 32768) : magUnits (withSign s (k * 1024 + n)) = n * 2 ^ k := by
  unfold magUnits
  rw [expOf_withSign s hlt, manOf_withSign s hlt]
  obtain hlow | hbinade | htop : (k = 0 ∧ n < 1024) ∨ (1024 ≤ n ∧ n < 2048) ∨ n = 2048 := by omega
  · obtain ⟨rfl, hn⟩ := hlow
    rw [if_pos (by omega)]
    omega
  · rw [if_neg (by omega), show (k * 1024 + n) / 1024 - 1 = k by omega]
    congr 1
    omega
  · subst htop
    rw [if_neg (by omega), show (k * 1024 + 2048) / 1024 - 1 = k + 1 by omega, pow_succ,
      show (k * 1024 + 2048) % 1024 = 0 by omega]
    ring

/-- The magnitude of the rounded pattern is the quanta it was rounded to. -/
theorem magUnits_roundMagnitude {num den : Nat} (s : Bool) (hd : 0 < den) (hlt : num < 65520 * den) :
    magUnits (withSign s (roundMagnitude num den)) = roundQuanta num den * 2 ^ roundShift num den := by
  have hm := roundMagnitude_lt hd hlt
  rw [roundMagnitude_eq hd hlt] at *
  exact magUnits_withSign s (roundQuanta_le hd) (roundShift_eq_zero_or hd) (by omega)

/-- Seen from any quantum, a pattern's magnitude is a whole number of quanta or lies below the quantum's binade. -/
theorem magUnits_multiple_or_lt (h : Half) (k : Nat) :
    (∃ n, magUnits h = n * 2 ^ k) ∨ (k ≠ 0 ∧ magUnits h < 1024 * 2 ^ k) := by
  by_cases hk : k ≤ expOf h - 1
  · left
    unfold magUnits
    split_ifs with he
    · exact ⟨manOf h, by rw [show k = 0 by omega, pow_zero, mul_one]⟩
    · exact ⟨(1024 + manOf h) * 2 ^ (expOf h - 1 - k), by rw [mul_assoc, ← pow_add, Nat.sub_add_cancel hk]⟩
  · have hman := manOf_lt h
    have hpow : 2 ^ (expOf h - 1 + 1) ≤ 2 ^ k := Nat.pow_le_pow_right (by omega) (by omega)
    refine .inr ⟨by omega, ?_⟩
    unfold magUnits
    split_ifs with he
    · have hone : 1 ≤ 2 ^ k := Nat.one_le_two_pow
      omega
    · rw [pow_succ] at hpow
      calc (1024 + manOf h) * 2 ^ (expOf h - 1) < 2048 * 2 ^ (expOf h - 1) :=
            Nat.mul_lt_mul_of_pos_right (by omega) (by positivity)
        _ ≤ 1024 * 2 ^ k := by omega

/-- How far the magnitude of a pattern is from num / den, as a count of 2^-24 / den. -/
def magDistance (num den : Nat) (h : Half) : Nat := quotientGap (num * unitDen) den (magUnits h)

/-- The heart of R6, on magnitudes: no finite pattern is nearer to num / den than the rounded one, whose mantissa is
even where one of another magnitude is as near. -/
theorem roundMagnitude_nearest {num den : Nat} {r : Half} {s : Bool} (hd : 0 < den) (hlt : num < 65520 * den)
    (hr : r = withSign s (roundMagnitude num den)) (h : Half) :
    magDistance num den r ≤ magDistance num den h ∧
      (magDistance num den r = magDistance num den h → magUnits h ≠ magUnits r → manOf r % 2 = 0) := by
  have hman : manOf r % 2 = roundQuanta num den % 2 := by
    have hm := roundMagnitude_lt hd hlt
    rw [hr, manOf_withSign s (by omega), roundMagnitude_eq hd hlt]
    omega
  have hmag : magUnits r = roundQuanta num den * 2 ^ roundShift num den := hr ▸ magUnits_roundMagnitude s hd hlt
  have hnear := roundNearestEven_nearest (num := num * unitDen) (den := den * 2 ^ roundShift num den) (by positivity)
  rw [← roundQuanta] at hnear
  unfold magDistance
  rw [hman, hmag, quotientGap_mul]
  obtain ⟨k, hk⟩ | ⟨hshift, hbelow⟩ := magUnits_multiple_or_lt h (roundShift num den)
  · rw [hk, quotientGap_mul]
    exact ⟨(hnear k).1, fun heq hne => (hnear k).2 heq fun h => hne (by rw [h])⟩
  · have hlo : 1024 * (den * 2 ^ roundShift num den) ≤ num * unitDen :=
      roundShift_lower (by unfold roundShift at hshift; omega)
    have hbelow' : magUnits h * den < 1024 * (den * 2 ^ roundShift num den) :=
      calc magUnits h * den < 1024 * 2 ^ roundShift num den * den := Nat.mul_lt_mul_of_pos_right hbelow hd
        _ = _ := by ring
    have hlt : quotientGap (num * unitDen) (den * 2 ^ roundShift num den) (roundQuanta num den) <
        quotientGap (num * unitDen) den (magUnits h) :=
      lt_of_le_of_lt (hnear 1024).1 (quotientGap_lt hbelow' hlo)
    exact ⟨hlt.le, fun heq => absurd heq hlt.ne⟩

/-! `RoundH` on the signed number (R6). -/

theorem roundH_zero (den : Nat) (zs : Bool) : roundH 0 den zs = if zs then 0x8000#16 else 0x0000#16 := by
  cases zs <;> rfl

theorem roundH_of_ne_zero {num : Int} (hn : num ≠ 0) (den : Nat) (zs : Bool) :
    roundH num den zs = withSign (decide (num < 0)) (roundMagnitude num.natAbs den) := if_neg hn

theorem roundH_of_ge {num : Int} {den : Nat} (zs : Bool) (hd : 0 < den) (h : 65520 * den ≤ num.natAbs) :
    roundH num den zs = if num < 0 then 0xFC00#16 else 0x7C00#16 := by
  rw [roundH_of_ne_zero (by omega), roundMagnitude_of_ge h]
  split_ifs with hneg
  · rw [decide_eq_true hneg]
    rfl
  · rw [decide_eq_false hneg]
    rfl

theorem unitDen_pos : 0 < unitDen := by unfold unitDen; positivity

/-- A pattern's value, scaled, is its magnitude scaled, with its sign. -/
theorem valueUnits_mul (h : Half) (den : Nat) :
    valueUnits h * den = if signOf h then -((magUnits h * den : Nat) : Int) else (magUnits h * den : Nat) := by
  unfold valueUnits
  split_ifs <;> push_cast <;> ring

/-- A number, scaled, is its magnitude scaled, with its sign. -/
theorem mul_unitDen_eq (num : Int) : num * unitDen =
    if num < 0 then -((num.natAbs * unitDen : Nat) : Int) else (num.natAbs * unitDen : Nat) := by
  push_cast
  split_ifs with hneg
  · rw [abs_of_neg hneg, neg_mul, neg_neg]
  · rw [abs_of_nonneg (by omega)]

/-- On a pattern of the number's own sign the distance is that of the magnitudes. -/
theorem distance_of_signOf_eq {num : Int} {h : Half} (den : Nat) (hs : signOf h = decide (num < 0)) :
    Claims.distance num den h = magDistance num.natAbs den h := by
  unfold Claims.distance magDistance quotientGap
  rw [valueUnits_mul, mul_unitDen_eq, hs]
  by_cases hneg : num < 0
  · rw [if_pos hneg, if_pos (decide_eq_true hneg)]
    omega
  · rw [if_neg hneg, if_neg (by simp [hneg])]

/-- On a pattern of the other sign the magnitudes add up. -/
theorem distance_of_signOf_ne {num : Int} {h : Half} (den : Nat) (hs : signOf h ≠ decide (num < 0)) :
    Claims.distance num den h = num.natAbs * unitDen + magUnits h * den := by
  unfold Claims.distance
  rw [valueUnits_mul, mul_unitDen_eq, Bool.eq_not_of_ne hs]
  by_cases hneg : num < 0
  · rw [if_pos hneg, if_neg (by simp [hneg])]
    omega
  · rw [if_neg hneg, if_pos (by simp [hneg])]
    omega

theorem quotientGap_le_add (num den k : Nat) : quotientGap num den k ≤ num + k * den := by
  unfold quotientGap
  omega

/-- Only zero is as far from a positive quotient as the sum of the two. -/
theorem eq_zero_of_quotientGap_eq_add {num den k : Nat} (hn : 0 < num) (hd : 0 < den)
    (h : quotientGap num den k = num + k * den) : k = 0 := by
  unfold quotientGap at h
  have hkd : k * den = 0 := by omega
  exact (Nat.mul_eq_zero.1 hkd).resolve_right hd.ne'

section
variable {num : Int} {den : Nat} (zs : Bool) (hn : num ≠ 0) (hd : 0 < den) (hlt : num.natAbs < 65520 * den)
include hn hd hlt

theorem isFinite_roundH : isFinite (roundH num den zs) = true := by
  have hm := roundMagnitude_lt hd hlt
  rw [isFinite_iff, roundH_of_ne_zero hn, expOf_withSign _ (by omega)]
  omega

theorem signOf_roundH : signOf (roundH num den zs) = decide (num < 0) := by
  have hm := roundMagnitude_lt hd hlt
  rw [roundH_of_ne_zero hn, signOf_withSign _ (by omega)]

/-- No finite pattern is nearer than the rounded one, whose mantissa is even where one of another value is as near. A
pattern of the other sign is as near only where it is a zero, as its magnitude adds to the distance. -/
theorem roundH_nearest (h : Half) :
    Claims.distance num den (roundH num den zs) ≤ Claims.distance num den h ∧
      (Claims.distance num den (roundH num den zs) = Claims.distance num den h →
        valueUnits h ≠ valueUnits (roundH num den zs) → manOf (roundH num den zs) % 2 = 0) := by
  have hsign := signOf_roundH zs hn hd hlt
  obtain ⟨hle, heven⟩ := roundMagnitude_nearest hd hlt (roundH_of_ne_zero hn den zs) h
  rw [distance_of_signOf_eq den hsign]
  by_cases hs : signOf h = decide (num < 0)
  · rw [distance_of_signOf_eq den hs]
    refine ⟨hle, fun heq hne => heven heq fun hmag => hne ?_⟩
    simp only [valueUnits, hs, hsign, hmag]
  · have hadd : magDistance num.natAbs den h ≤ num.natAbs * unitDen + magUnits h * den := quotientGap_le_add ..
    rw [distance_of_signOf_ne den hs]
    refine ⟨hle.trans hadd, fun heq hne => heven (le_antisymm hle (heq ▸ hadd)) fun hmag => hne ?_⟩
    have hzero : magUnits h = 0 := eq_zero_of_quotientGap_eq_add (Nat.mul_pos (by omega) unitDen_pos) hd
      (le_antisymm hadd (heq ▸ hle))
    simp [valueUnits, ← hmag, hzero]

end

/-- Settles O29, by the three ranges of R6; between zero and overflow the quanta of the number's binade are compared. -/
theorem roundHIsNearestTiesToEven : Obligations.RoundHIsNearestTiesToEven := fun _ den zs hd =>
  ⟨fun hn => hn ▸ roundH_zero den zs, roundH_of_ge zs hd, fun hn hlt =>
    ⟨isFinite_roundH zs hn hd hlt, signOf_roundH zs hn hd hlt, fun h _ => roundH_nearest zs hn hd hlt h⟩⟩

/-! FMUL, FMA and the conversions (R8, R9, R13, R14). -/

theorem isNaN_withSign (s : Bool) {m : Nat} (hm : m ≤ 0x7C00) : isNaN (withSign s m) = false := by
  rw [← Bool.not_eq_true, isNaN_iff, expOf_withSign s (by omega), manOf_withSign s (by omega)]
  omega

/-- RoundH never gives a NaN (R6). -/
theorem isNaN_roundH (num : Int) {den : Nat} (zs : Bool) (hd : 0 < den) : isNaN (roundH num den zs) = false := by
  by_cases hn : num = 0
  · rw [hn, roundH_zero]
    cases zs <;> decide
  · rw [roundH_of_ne_zero hn]
    exact isNaN_withSign _ (roundMagnitude_le hd)

/-- A product is the default NaN or no NaN at all (R7, R8). -/
theorem fmul_eq_defaultNaN_or (a b : Half) : fmul a b = defaultNaN ∨ isNaN (fmul a b) = false := by
  unfold fmul
  dsimp only
  split_ifs
  · exact .inl rfl
  · exact .inl rfl
  · exact .inr (isNaN_withSign _ (by omega))
  · exact .inr (isNaN_withSign _ (by omega))
  · exact .inr (isNaN_roundH _ _ (Nat.mul_pos unitDen_pos unitDen_pos))

/-- A multiply-add is the default NaN or no NaN at all (R7, R9). -/
theorem fma_eq_defaultNaN_or (a b c : Half) : fma a b c = defaultNaN ∨ isNaN (fma a b c) = false := by
  unfold fma
  dsimp only
  split_ifs
  · exact .inl rfl
  · exact .inl rfl
  · exact .inl rfl
  · exact .inr (isNaN_withSign _ (by omega))
  · exact .inr (isNaN_eq_false_of_isInf ‹isInf c = true›)
  · exact .inr (by decide)
  · exact .inr (by decide)
  · exact .inr (isNaN_roundH _ _ (Nat.mul_pos unitDen_pos unitDen_pos))

theorem fmul_of_isNaN {a b : Half} (h : isNaN a = true ∨ isNaN b = true) : fmul a b = defaultNaN :=
  if_pos (by simpa using h)

/-- inf * 0 (R8). -/
theorem fmul_of_inf_zero {a b : Half}
    (h : (isInf a = true ∧ isZero b = true) ∨ (isZero a = true ∧ isInf b = true)) : fmul a b = defaultNaN := by
  simp [fmul, h]

theorem fma_of_isNaN {a b c : Half} (h : isNaN a = true ∨ isNaN b = true ∨ isNaN c = true) :
    fma a b c = defaultNaN :=
  if_pos (by simpa [or_assoc] using h)

/-- inf * 0 + c (R9). -/
theorem fma_of_inf_zero {a b : Half} (c : Half)
    (h : (isInf a = true ∧ isZero b = true) ∨ (isZero a = true ∧ isInf b = true)) : fma a b c = defaultNaN := by
  simp [fma, h]

/-- inf - inf (R9). -/
theorem fma_of_inf_sub_inf {a b c : Half} (hab : isInf a = true ∨ isInf b = true) (hc : isInf c = true)
    (hs : signOf c ≠ (signOf a ^^ signOf b)) : fma a b c = defaultNaN := by
  simp [fma, hab, hc, hs]

/-- Settles O30: each NaN cause by its rule, and every other branch gives no NaN. -/
theorem floatingPointNaNsAreTheDefault : Obligations.FloatingPointNaNsAreTheDefault := by
  refine ⟨fun a b h => ?_, fun a b c h => ?_, fun a b hn => ?_, fun a b c hn => ?_⟩
  · rw [← or_assoc] at h
    exact h.elim fmul_of_isNaN fmul_of_inf_zero
  · obtain ha | hb | hc | hif | hfi | ⟨hab, hc, hs⟩ := h
    · exact fma_of_isNaN (.inl ha)
    · exact fma_of_isNaN (.inr (.inl hb))
    · exact fma_of_isNaN (.inr (.inr hc))
    · exact fma_of_inf_zero c (.inl hif)
    · exact fma_of_inf_zero c (.inr hfi)
    · exact fma_of_inf_sub_inf hab hc hs
  · exact (fmul_eq_defaultNaN_or a b).resolve_right (by simp [hn])
  · exact (fma_eq_defaultNaN_or a b c).resolve_right (by simp [hn])

/-- The sign plays no part in how far `nearestInt` is from the value (R13). -/
theorem nearestInt_distance (a : Half) : (nearestInt a * unitDen - valueUnits a).natAbs =
    quotientGap (magUnits a) unitDen (roundNearestEven (magUnits a) unitDen) := by
  unfold nearestInt valueUnits quotientGap
  push_cast
  cases signOf a
  · simp only [Bool.false_eq_true, if_false]
    omega
  · simp only [if_true, neg_mul]
    omega

/-- The integer a finite pattern is rounded to lies within one half of its value (R13). -/
theorem nearestInt_near (a : Half) : 2 * (nearestInt a * unitDen - valueUnits a).natAbs ≤ unitDen := by
  obtain ⟨hlo, hhi⟩ := roundNearestEven_near (magUnits a) unitDen unitDen_pos
  rw [nearestInt_distance]
  unfold quotientGap
  omega

theorem nearestInt_even_of_tie (a : Half) (h : 2 * (nearestInt a * unitDen - valueUnits a).natAbs = unitDen) :
    nearestInt a % 2 = 0 := by
  rw [nearestInt_distance] at h
  have heven := roundNearestEven_even_of_half unitDen_pos h
  unfold nearestInt
  dsimp only
  split_ifs <;> omega

theorem cvtF16ToS16_of_isNaN {a : Half} (h : isNaN a = true) : cvtF16ToS16 a = 0#16 := if_pos h

theorem cvtF16ToS16_of_isInf {a : Half} (h : isInf a = true) :
    cvtF16ToS16 a = if signOf a then asU16 (-32768) else asU16 32767 := by
  simp [cvtF16ToS16, h, isNaN_eq_false_of_isInf h]

theorem cvtF16ToS16_of_isFinite {a : Half} (h : isFinite a = true) :
    cvtF16ToS16 a = asU16 (ssat16 (nearestInt a)) := by
  simp [cvtF16ToS16, isNaN_eq_false_of_isFinite h, isInf_eq_false_of_isFinite h]

/-- Settles O32: by the three classes of R13; a finite pattern's integer is `nearestInt`. -/
theorem toIntegerRoundsToNearestAndClamps : Obligations.ToIntegerRoundsToNearestAndClamps := by
  intro a
  refine ⟨fun hn => ?_, fun hi => ?_, fun hf => ⟨nearestInt a, nearestInt_near a, nearestInt_even_of_tie a, ?_⟩⟩
  · rw [cvtF16ToS16_of_isNaN hn]
    rfl
  · rw [cvtF16ToS16_of_isInf hi]
    split <;> rfl
  · rw [cvtF16ToS16_of_isFinite hf, asS16_asU16_ssat16, ssat16]

/-- A whole number of quanta is kept (R6). -/
theorem roundQuanta_exact {n : Nat} (h : 2 ^ roundShift n 1 ∣ n * unitDen) :
    roundQuanta n 1 * 2 ^ roundShift n 1 = n * unitDen := by
  obtain ⟨q, hq⟩ := h
  unfold roundQuanta
  rw [one_mul, hq, mul_comm _ q, roundNearestEven_exact _ _ (by positivity)]

/-- Integers up to 2048 are whole numbers of quanta (R14). -/
theorem two_pow_roundShift_dvd {n : Nat} (hn : n ≤ 2048) : 2 ^ roundShift n 1 ∣ n * unitDen := by
  obtain rfl | hlt := hn.eq_or_lt
  · decide +kernel
  · refine Dvd.dvd.mul_left (Nat.pow_dvd_pow 2 ?_) n
    have hlog : Nat.log2 (n * unitDen / 1) ≤ 34 := by
      rw [Nat.div_one, Nat.log2_eq_log_two]
      exact Nat.lt_succ_iff.1 (Nat.log_lt_of_lt_pow' (by omega)
        (Nat.mul_lt_mul_of_pos_right hlt unitDen_pos))
    unfold roundShift
    omega

/-- RoundH keeps an integer of magnitude up to 2048 (R14). -/
theorem roundH_int_exact {i : Int} (hlo : -2048 ≤ i) (hhi : i ≤ 2048) :
    isFinite (roundH i 1 false) = true ∧ valueUnits (roundH i 1 false) = i * 2 ^ 24 := by
  by_cases hi : i = 0
  · subst hi
    decide
  · have hlt : i.natAbs < 65520 * 1 := by omega
    have hmag : magUnits (roundH i 1 false) = i.natAbs * unitDen := by
      rw [roundH_of_ne_zero hi, magUnits_roundMagnitude _ one_pos hlt,
        roundQuanta_exact (two_pow_roundShift_dvd (by omega))]
    refine ⟨isFinite_roundH false hi one_pos hlt, ?_⟩
    change _ = i * unitDen
    rw [mul_unitDen_eq, valueUnits, signOf_roundH false hi one_pos hlt, hmag]
    simp

/-- Settles O33: an integer up to 2048 is a whole number of quanta, so rounding keeps it. -/
theorem fromIntegerIsExactUpTo2048 : Obligations.FromIntegerIsExactUpTo2048 :=
  ⟨fun _ => ⟨rfl, roundH_int_exact⟩, by decide +kernel⟩

/-! Lanes of a command's outputs (R17). -/

theorem coefficients_eq {s t : State} {b b' : Vec} {src : CoefSource} (hrom : s.sameRom t)
    (hb : src = .portB → b = b') : coefficients s b src = coefficients t b' src := by
  obtain ⟨-, he, hl⟩ := hrom
  cases src
  case portB => rw [coefficients_portB, coefficients_portB, hb rfl]
  case expTable => rw [coefficients_expTable, coefficients_expTable, he]
  case logTable => rw [coefficients_logTable, coefficients_logTable, hl]

section
variable {s t : State} {a b a' b' : Vec} {j : Lane}

/-- Two one-vector commands agree on a lane where their functions agree. -/
theorem mapLanes_sameOutputLane {f g : Vec → Half → Half} (hs : s.operandsWhole a b) (ht : t.operandsWhole a' b')
    (hfg : f b (lane a j) = g b' (lane a' j)) :
    ∃ s' t', mapLanes s f = .next s' ∧ mapLanes t g = .next t' ∧ sameOutputLane s' t' j := by
  refine ⟨_, _, mapLanes_whole f hs.1 hs.2, mapLanes_whole g ht.1 ht.2, ?_⟩
  simp [sameOutputLane, hfg]

/-- Two POLY commands of one source agree on a lane of one argument (R121). -/
theorem evalPoly_sameOutputLane (src : CoefSource) (hs : s.operandsWhole a b) (ht : t.operandsWhole a' b')
    (hrom : s.sameRom t) (hb : src = .portB → b = b') (hj : lane a j = lane a' j) :
    ∃ s' t', evalPoly s src = .next s' ∧ evalPoly t src = .next t' ∧ sameOutputLane s' t' j :=
  mapLanes_sameOutputLane hs ht (by rw [coefficients_eq hrom hb, hj])

theorem splitLane_eq {x : Half}
    (hfix : splitInDomain x = true ∨ (s.drawSource = t.drawSource ∧ s.drawCount = t.drawCount)) :
    splitLane s.drawSource s.drawCount j x = splitLane t.drawSource t.drawCount j x := by
  obtain hx | ⟨hsrc, hcount⟩ := hfix
  · simp [splitLane, hx]
  · rw [hsrc, hcount]

theorem logLane_eq {x : Half} (rom : ConstRom) (coef : Lane → Half)
    (hfix : logInDomain x = true ∨ (s.drawSource = t.drawSource ∧ s.drawCount = t.drawCount)) :
    logLane rom coef s.drawSource s.drawCount j x = logLane rom coef t.drawSource t.drawCount j x := by
  obtain hx | ⟨hsrc, hcount⟩ := hfix
  · simp [logLane, hx]
  · rw [hsrc, hcount]

theorem execSplit_sameOutputLane (hs : s.operandsWhole a b) (ht : t.operandsWhole a' b') (hj : lane a j = lane a' j)
    (hfix : splitInDomain (lane a j) = true ∨ (s.drawSource = t.drawSource ∧ s.drawCount = t.drawCount)) :
    ∃ s' t', execSplit s = .next s' ∧ execSplit t = .next t' ∧ sameOutputLane s' t' j := by
  refine ⟨_, _, withOperands_whole _ hs.1 hs.2, withOperands_whole _ ht.1 ht.2, ?_⟩
  simp [sameOutputLane, splitLane_eq hfix, ← hj]

theorem execLog_sameOutputLane (hs : s.operandsWhole a b) (ht : t.operandsWhole a' b') (hrom : s.sameRom t)
    (hj : lane a j = lane a' j)
    (hfix : logInDomain (lane a j) = true ∨ (s.drawSource = t.drawSource ∧ s.drawCount = t.drawCount)) :
    ∃ s' t', execLog s = .next s' ∧ execLog t = .next t' ∧ sameOutputLane s' t' j := by
  refine ⟨_, _, withOperands_whole _ hs.1 hs.2, withOperands_whole _ ht.1 ht.2, ?_⟩
  have hcoef : coefficients s b .logTable = coefficients t b' .logTable := coefficients_eq hrom nofun
  simp [sameOutputLane, logLane_eq _ _ hfix, ← hj, hrom.1, hcoef]

end

/-- Settles O12: each command's lane is a function of that lane of A, the ROM, for POLY of B, and, where it shows a
draw, of the source and the count of draws. -/
theorem lanesAreIndependent : Obligations.LanesAreIndependent := by
  intro i j s t a b a' b' hs ht hrom hj hb hfix
  cases i
  case recipm =>
    simp only [exec_recipm]
    exact mapLanes_sameOutputLane hs ht (by rw [hrom.1, hj])
  case reciph =>
    simp only [exec_reciph]
    exact mapLanes_sameOutputLane hs ht (by rw [hrom.1, hj])
  case poly => exact evalPoly_sameOutputLane .portB hs ht hrom (fun _ => hb rfl) hj
  case polyE => exact evalPoly_sameOutputLane .expTable hs ht hrom nofun hj
  case polyL => exact evalPoly_sameOutputLane .logTable hs ht hrom nofun hj
  case split => exact execSplit_sameOutputLane hs ht hj hfix
  case log => exact execLog_sameOutputLane hs ht hrom hj hfix
  case exp =>
    have hcoef : coefficients s b .expTable = coefficients t b' .expTable := coefficients_eq hrom nofun
    simp only [exec_exp]
    exact mapLanes_sameOutputLane hs ht (by rw [hrom.1, hcoef, hj])

end Sys2Proof.Machine

/-! SUPPORT. What an accepted command does to the whole state, and what a step keeps of it (R43 to R45, R64, R230, R231). -/

namespace Sys2Proof.Machine

/-! The frame of a completed command. -/

/-- On whole operands a command writes both outputs and counts its draws. -/
theorem exec_whole {s : State} {a b : Vec} (i : Instr) (h : s.operandsWhole a b) :
    ∃ yv nv d, exec i s = .next ((s.writeOutputs yv nv).advanceDraws d) := by
  obtain ⟨y, n, d, he⟩ := exec_shape i s
  exact ⟨_, _, d, he.trans (withOperands_whole _ h.1 h.2)⟩

/-- Every command but SPLIT and LOG is a one-vector command. -/
theorem exec_eq_mapLanes {i : Instr} (hsplit : i ≠ .split) (hlog : i ≠ .log) (s : State) :
    ∃ f, exec i s = mapLanes s f := by
  cases i
  case recipm => exact ⟨_, exec_recipm s⟩
  case reciph => exact ⟨_, exec_reciph s⟩
  case poly => exact ⟨_, exec_poly s⟩
  case polyE => exact ⟨_, exec_polyE s⟩
  case polyL => exact ⟨_, exec_polyL s⟩
  case split => exact absurd rfl hsplit
  case log => exact absurd rfl hlog
  case exp => exact ⟨_, exec_exp s⟩

/-- Every command but SPLIT leaves zeros in N (R42). -/
theorem exec_n_zero {i : Instr} {s t : State} (hi : i ≠ .split) (h : exec i s = .next t) :
    t.n = some (broadcast 0x0000#16) := by
  by_cases hlog : i = .log
  · subst hlog
    obtain ⟨a, b, -, -, rfl⟩ := withOperands_next h
    rfl
  · obtain ⟨f, hf⟩ := exec_eq_mapLanes hi hlog s
    rw [hf] at h
    obtain ⟨a, b, -, -, rfl⟩ := mapLanes_next h
    rfl

/-- Settles O11: the next state is the state before with outputs written and draws counted. -/
theorem everyCommandCompletesAndWritesOnlyTheOutputs : Obligations.EveryCommandCompletesAndWritesOnlyTheOutputs := by
  intro i s a b h
  obtain ⟨yv, nv, d, he⟩ := exec_whole i h
  refine ⟨_, yv, nv, he, rfl, Nat.le_add_right _ d, fun hi j => ?_⟩
  obtain rfl : nv = broadcast 0x0000#16 := by simpa using exec_n_zero hi he
  exact lane_broadcast _ j

theorem splitLane_of_outside {x : Half} (src d : Nat) (i : Lane) (hx : splitInDomain x = false) :
    splitLane src d i x = { r := Config.draw src (d + 2 * i.val), n := Config.draw src (d + 2 * i.val + 1) } := by
  simp [splitLane, hx]

theorem logLane_of_outside {x : Half} (rom : ConstRom) (coef : Lane → Half) (src d : Nat) (i : Lane)
    (hx : logInDomain x = false) : logLane rom coef src d i x = Config.draw src (d + i.val) := by
  simp [logLane, hx]

/-- Settles O10, with the numbering of `splitLane` and `logLane` (log 5). -/
theorem lanesOutsideTheDomainAreFreshDraws : Obligations.LanesOutsideTheDomainAreFreshDraws := by
  intro s a b ⟨ha, hb⟩
  constructor
  · refine ⟨_, _, _, fun i => s.drawCount + 2 * i.val, fun i => s.drawCount + 2 * i.val + 1,
      withOperands_whole _ ha hb, rfl, rfl, fun i j hij => ?_, fun i j hij => ?_, fun i j => ?_, fun i => ?_,
      fun i hx => ?_⟩
    · exact Fin.ext (by dsimp only at hij; omega)
    · exact Fin.ext (by dsimp only at hij; omega)
    · dsimp only; omega
    · simp only [State.advanceDraws_drawCount, State.writeOutputs_drawCount]; omega
    · simp [splitLane_of_outside _ _ i hx]
  · refine ⟨_, _, fun i => s.drawCount + i.val, withOperands_whole _ ha hb, rfl, fun i j hij => ?_, fun i => ?_,
      fun i hx => ?_⟩
    · exact Fin.ext (by dsimp only at hij; omega)
    · simp only [State.advanceDraws_drawCount, State.writeOutputs_drawCount]; omega
    · simp [logLane_of_outside _ _ _ _ i hx]

/-! The ROM. -/

theorem State.sameRom.refl (s : State) : s.sameRom s := ⟨rfl, rfl, rfl⟩

theorem State.sameRom.trans {s t u : State} (h : s.sameRom t) (h' : t.sameRom u) : s.sameRom u :=
  let ⟨hconst, hexp, hlog⟩ := h
  let ⟨hconst', hexp', hlog'⟩ := h'
  ⟨hconst'.trans hconst, hexp'.trans hexp, hlog'.trans hlog⟩

theorem exec_sameRom {i : Instr} {s t : State} (h : exec i s = .next t) : s.sameRom t := by
  obtain ⟨a, b, yv, nv, d, -, -, rfl⟩ := exec_next h
  exact State.sameRom.refl s

/-- No step changes the ROM (R44, R45, R230). -/
theorem step_sameRom {s t : State} (h : step s = .next t) : s.sameRom t := by
  obtain ⟨-, rfl⟩ | ⟨p, rest, w, i, -, -, -, -, he⟩ | ⟨port, rest, v, -, -, rfl⟩ | ⟨rest, -, rfl⟩ := step_next_cases h
  · exact State.sameRom.refl t
  · exact exec_sameRom (s := s.sample p) he
  · exact ⟨rfl, rfl, rfl⟩
  · exact ⟨rfl, rfl, rfl⟩

/-- Settles O41: a step keeps the ROM, and the records of a refusal or a fault are no part of it. -/
theorem noMoveChangesTheRom : Obligations.NoMoveChangesTheRom := by
  intro s
  cases h : step s with
  | next t => rw [stepRecorded_next h]; exact step_sameRom h
  | fault f => rw [stepRecorded_fault h]; exact ⟨rfl, rfl, rfl⟩
  | refused r => rw [stepRecorded_refused h]; exact ⟨rfl, rfl, rfl⟩

/-! The decoder's inverse (R80 to R82). -/

theorem decode_encode (i : Instr) : decode (encode i) = .ok i := by
  cases i <;> rfl

/-- A word that decodes to a command is the command's word: each command's, among the 256 words. -/
theorem encode_of_decode {w : Byte} {i : Instr} (h : decode w = .ok i) : encode i = w := by
  cases i <;> revert w <;> decide +kernel

/-! The invariant: the outputs are those of the command sampled last (R64, R231). -/

/-- A command gives the same fixed lanes on the same operands and ROM, whatever else the state holds (R40). -/
theorem exec_sameOutputLane {i : Instr} {s t s' t' : State} {a b : Vec} {k : Lane} (hs : s.operandsWhole a b)
    (ht : t.operandsWhole a b) (hrom : s.sameRom t) (hs' : exec i s = .next s') (ht' : exec i t = .next t')
    (hfix : laneIsFixed i (lane a k) = true) : sameOutputLane s' t' k := by
  obtain ⟨u, v, hu, hv, hlane⟩ := lanesAreIndependent i k s t a b a b hs ht hrom rfl (fun _ => rfl) (.inl hfix)
  rw [hs', Host.Outcome.next.injEq] at hu
  rw [ht', Host.Outcome.next.injEq] at hv
  rwa [hu, hv]

theorem sameOutputLane.trans {s t u : State} {k : Lane} (h : sameOutputLane s t k) (h' : sameOutputLane t u k) :
    sameOutputLane s u k :=
  ⟨h.1.trans h'.1, h.2.trans h'.2⟩

/-- The clause about the last command speaks of the ROM, the ports and the outputs only. -/
theorem State.outputsOfLastCommand.congr {s t : State} (h : s.outputsOfLastCommand) (hrom : s.sameRom t)
    (hports : t.ports = s.ports) (hy : t.y = s.y) (hn : t.n = s.n) : t.outputsOfLastCommand := by
  obtain hnone | ⟨i, a, u, hcmd, ha, he, hlanes⟩ := h
  · exact .inl (hy.trans hnone)
  · obtain ⟨a', b, yv, nv, d, ha', hb, -⟩ := exec_next he
    have hs : s.operandsWhole a b := ⟨ha, hb⟩
    have ht : t.operandsWhole a b := by rwa [State.operandsWhole, hports]
    obtain ⟨yv', nv', d', he'⟩ := exec_whole i ht
    refine .inr ⟨i, a, _, hports ▸ hcmd, hports ▸ ha, he', fun k hk => ?_⟩
    have hts : sameOutputLane t s k := ⟨by rw [hy], by rw [hn]⟩
    exact (hts.trans (hlanes k hk)).trans (exec_sameOutputLane hs ht hrom he he' hk)

/-- A state that differs from one of the invariant in no field the invariant reads meets it too. -/
theorem State.Inv.congr {s t : State} (h : s.Inv) (hrom : s.sameRom t) (hports : t.ports = s.ports) (hy : t.y = s.y)
    (hn : t.n = s.n) : t.Inv := by
  obtain ⟨hbuilt, hpair, hlast⟩ := h
  exact ⟨hrom.1.trans hbuilt, by rwa [State.outputsPaired, hy, hn], hlast.congr hrom hports hy hn⟩

/-- A command leaves in the outputs what it gives again on the ports it leaves (R40, R64). -/
theorem outputsOfLastCommand_of_exec {i : Instr} {s t : State} (hcmd : s.ports.cmd = some (encode i))
    (h : exec i s = .next t) : t.outputsOfLastCommand := by
  obtain ⟨a, b, yv, nv, d, ha, hb, ht⟩ := exec_next h
  have hports : t.ports = s.ports := by simp [ht]
  have hwhole : t.operandsWhole a b := by rw [State.operandsWhole, hports]; exact ⟨ha, hb⟩
  obtain ⟨yv', nv', d', he⟩ := exec_whole i hwhole
  exact .inr ⟨i, a, _, hports ▸ hcmd, hports ▸ ha, he, fun k =>
    exec_sameOutputLane ⟨ha, hb⟩ hwhole (exec_sameRom h) h he⟩

/-- A command run on the ports of its own word meets the invariant, where the ROM does. -/
theorem inv_of_exec {i : Instr} {s t : State} (hrom : s.romAsBuilt) (hcmd : s.ports.cmd = some (encode i))
    (h : exec i s = .next t) : t.Inv := by
  refine ⟨(exec_sameRom h).1.trans hrom, ?_, outputsOfLastCommand_of_exec hcmd h⟩
  obtain ⟨a, b, yv, nv, d, -, -, rfl⟩ := exec_next h
  rfl

/-- Without a value in either output the invariant asks for the ROM alone. -/
theorem inv_of_no_outputs {s : State} (hrom : s.romAsBuilt) (hy : s.y = none) (hn : s.n = none) : s.Inv :=
  ⟨hrom, by rw [State.outputsPaired, hy, hn], .inl hy⟩

/-- Settles O39, by the kinds of step: only a command and a reset touch what the invariant reads. -/
theorem stepKeepsTheInvariant : Obligations.StepKeepsTheInvariant := by
  intro s t hinv h
  obtain ⟨-, rfl⟩ | ⟨p, rest, w, i, -, -, hc, hd, he⟩ | ⟨port, rest, v, -, -, rfl⟩ | ⟨rest, -, rfl⟩ := step_next_cases h
  · exact hinv
  · exact inv_of_exec (s := s.sample p) hinv.1 (by rw [State.sample_ports, hc, encode_of_decode hd]) he
  · exact hinv.congr ⟨rfl, rfl, rfl⟩ rfl rfl rfl
  · exact inv_of_no_outputs hinv.1 rfl rfl

/-- Settles O38: a machine just built has the ROM of R43 and no outputs. -/
theorem builtInstanceMeetsTheInvariant : Obligations.BuiltInstanceMeetsTheInvariant := fun _ _ _ =>
  ⟨inv_of_no_outputs rfl rfl rfl, rfl, rfl⟩

/-- Settles O37: each row of R230's table is a field of `State.build`. -/
theorem resetHoldsTheValuesOfTheTable : Obligations.ResetHoldsTheValuesOfTheTable :=
  ⟨rfl, rfl, rfl, rfl, rfl, rfl, rfl, rfl, rfl, rfl, rfl, rfl, rfl, rfl⟩

/-! Several instances (R67): their sources of draws. -/

theorem buildInstances_drawSource (first : Nat) (tables : List (CoefTable × CoefTable)) :
    (buildInstances first tables).map State.drawSource = List.range' first tables.length := by
  induction tables generalizing first with
  | nil => rfl
  | cons table tables ih =>
    rw [buildInstances, List.map_cons, ih, List.length_cons, List.range'_succ]
    rfl

theorem stepInstance_drawSource (k : Nat) (fleet : List State) :
    (stepInstance k fleet).map State.drawSource = fleet.map State.drawSource := by
  apply List.ext_getElem?
  intro j
  rw [stepInstance, List.getElem?_map, List.getElem?_map, List.getElem?_modify]
  by_cases hj : k = j
  · simp [hj, Function.comp_def, stepRecorded_drawSource]
  · simp [hj]

/-- Settles O53: the sources of instances built together are consecutive numbers, and no step changes a source. -/
theorem instancesDrawApart : Obligations.InstancesDrawApart := by
  refine ⟨fun first tables => ?_, fun k fleet h => ?_⟩
  · rw [drawsApart, buildInstances_drawSource]
    exact List.nodup_range'
  · rwa [drawsApart, stepInstance_drawSource]

/-! A run of accepted commands (R65, R236). -/

/-- The ROM, the fault record and the refusal mark of `t` are those of `s`: what an accepted command leaves as it was. -/
structure State.sameRecords (s t : State) : Prop where
  rom : s.sameRom t
  fault : t.faultRecord = s.faultRecord
  mark : t.refusalMark = s.refusalMark

theorem State.sameRecords.trans {s t u : State} (h : s.sameRecords t) (h' : t.sameRecords u) : s.sameRecords u :=
  ⟨h.rom.trans h'.rom, h'.fault.trans h.fault, h'.mark.trans h.mark⟩

theorem State.sameRecords.notRefused {s t : State} (h : s.sameRecords t) (hm : s.notRefused) : t.notRefused :=
  h.mark.trans hm

theorem step_command {s : State} {p : Presentation} {rest : List HostMove} {w : Byte} {i : Instr}
    (hm : s.notRefused) (hp : s.pending = .command p :: rest) (hc : p.cmd = some w) (hd : decode w = .ok i) :
    step s = exec i (s.sample p) := by
  have hm' : s.refusalMark = false := hm
  simp [step_move hp, makeMove, presentCommand, hm', hc, hd]

/-- A command on whole ports is accepted: its move is used up and the records stay (R64, R235). -/
theorem step_command_whole {s : State} {a b : Vec} {rest : List HostMove} {w : Byte} {i : Instr} (hm : s.notRefused)
    (hp : s.pending = .command ⟨some w, some a, some b⟩ :: rest) (hd : decode w = .ok i) :
    ∃ t, step s = .next t ∧ exec i (s.sample ⟨some w, some a, some b⟩) = .next t ∧ s.sameRecords t ∧
      t.pending = rest := by
  obtain ⟨yv, nv, d, he⟩ := exec_whole (s := s.sample ⟨some w, some a, some b⟩) i ⟨rfl, rfl⟩
  refine ⟨_, (step_command hm hp rfl hd).trans he, he, ⟨⟨rfl, rfl, rfl⟩, rfl, rfl⟩, ?_⟩
  simp [hp]

theorem accepted_iff (p : Presentation) :
    Claims.accepted p ↔ ∃ w i a b, decode w = .ok i ∧ p = ⟨some w, some a, some b⟩ := by
  obtain ⟨cmd, pa, pb⟩ := p
  constructor
  · rintro ⟨w, i, rfl, hd, hw⟩
    simp only [Presentation.whole, Bool.and_eq_true, Option.isSome_iff_exists] at hw
    obtain ⟨⟨-, a, rfl⟩, b, rfl⟩ := hw
    exact ⟨w, i, a, b, hd, rfl⟩
  · rintro ⟨w, i, a, b, hd, hp⟩
    rw [hp]
    exact ⟨w, i, rfl, hd, rfl⟩

theorem run_succ_of_step {M : Host.Core} {s t : M.State} (k : Nat) (h : M.step s = .next t) :
    M.run (k + 1) s = M.run k t := by
  rw [Host.Core.run, h]

theorem core_run_succ {s t : State} (k : Nat) (h : step s = .next t) :
    Sys2Proof.core.run (k + 1) s = Sys2Proof.core.run k t :=
  run_succ_of_step (M := Sys2Proof.core) k h

/-- A run makes its accepted commands, and the records stay. -/
theorem core_run_accepted {ps : List Presentation} (hps : ∀ p ∈ ps, Claims.accepted p) (k : Nat)
    (rest : List HostMove) (s : State) (hm : s.notRefused) (hp : s.pending = ps.map .command ++ rest) :
    ∃ t, Sys2Proof.core.run (ps.length + k) s = Sys2Proof.core.run k t ∧ s.sameRecords t ∧ t.pending = rest := by
  induction ps generalizing s with
  | nil => exact ⟨s, by rw [List.length_nil, Nat.zero_add], ⟨.refl s, rfl, rfl⟩, hp⟩
  | cons p ps ih =>
    obtain ⟨hacc, htail⟩ := List.forall_mem_cons.1 hps
    obtain ⟨w, i, a, b, hd, rfl⟩ := (accepted_iff p).1 hacc
    obtain ⟨t, hstep, -, hst, htp⟩ := step_command_whole hm hp hd
    obtain ⟨u, hrun, htu, hup⟩ := ih htail t (hst.notRefused hm) htp
    refine ⟨u, ?_, hst.trans htu, hup⟩
    rw [List.length_cons, Nat.succ_add, core_run_succ _ hstep, hrun]

/-- Settles O51: the commands before the last keep the ROM, which is all the last one takes from them (R40). -/
theorem endOfRunIsTheLastCommandAlone : Obligations.EndOfRunIsTheLastCommandAlone := by
  intro s ps w a b i hm hps hd
  obtain ⟨t, hrun, hst, htp⟩ := core_run_accepted hps 1 [.command ⟨some w, some a, some b⟩]
    { s with pending := (ps ++ [Presentation.mk (some w) (some a) (some b)]).map HostMove.command } hm (by simp)
  obtain ⟨u, hstep, hexec, htu, hup⟩ := step_command_whole (hst.notRefused hm) htp hd
  obtain ⟨yv, nv, d, he⟩ :=
    exec_whole (s := { s with ports := Presentation.mk (some w) (some a) (some b) }) i ⟨rfl, rfl⟩
  have hsu := hst.trans htu
  refine ⟨u, _, ?_, he, hsu.fault, hsu.notRefused hm, hup, hsu.rom, fun k => ?_⟩
  · rw [hrun, core_run_succ 0 hstep]
    rfl
  · obtain ⟨hconst, hexp, hlog⟩ := hst.rom
    exact exec_sameOutputLane (s := t.sample _) (t := { s with ports := Presentation.mk (some w) (some a) (some b) })
      ⟨rfl, rfl⟩ ⟨rfl, rfl⟩ ⟨hconst.symm, hexp.symm, hlog.symm⟩ hexec he

/-! The assembler's host (R46, R85): its vectors, and what it keeps of a line. -/

@[simp] theorem HostVectors.value_store_same (h : HostVectors) (name : Text) (v : Vec) :
    (h.store name v).value name = some v :=
  List.lookup_cons_self

theorem HostVectors.lookup_filter_ne {name other : Text} (h : HostVectors) (hne : other ≠ name) :
    (h.filter fun e => e.1 != name).lookup other = h.lookup other := by
  induction h with
  | nil => rfl
  | cons e h ih =>
    obtain ⟨key, v⟩ := e
    by_cases hk : key = name
    · subst hk
      simp [List.lookup_cons, beq_false_of_ne hne, ih]
    · simp [hk, List.lookup_cons, ih]

theorem HostVectors.value_store_ne {name other : Text} (h : HostVectors) (v : Vec) (hne : other ≠ name) :
    (h.store name v).value other = h.value other := by
  rw [value, store, List.lookup_cons, beq_false_of_ne hne]
  exact h.lookup_filter_ne hne

section
variable {l : AsmLine} {t : State} {yv nv : Vec}

theorem AsmLine.keep_y (h : HostVectors) (hvn : l.vn = none) (hy : t.y = some yv) :
    l.keep t h = h.store l.vd yv := by
  simp [AsmLine.keep, hvn, hy]

theorem AsmLine.keep_y_n {vn : Text} (h : HostVectors) (hvn : l.vn = some vn) (hy : t.y = some yv)
    (hn : t.n = some nv) : l.keep t h = (h.store l.vd yv).store vn nv := by
  simp [AsmLine.keep, hvn, hy, hn]

/-- With two destinations the host holds Y in the one, N in the other, and its other vectors as before (R85). -/
theorem AsmLine.keep_value (h : HostVectors) (hy : t.y = some yv) (hn : t.n = some nv) (hvn : l.vn ≠ some l.vd) :
    (l.keep t h).value l.vd = some yv ∧ (∀ vn, l.vn = some vn → (l.keep t h).value vn = some nv) ∧
      ∀ v, v ≠ l.vd → l.vn ≠ some v → (l.keep t h).value v = h.value v := by
  cases hl : l.vn with
  | none =>
    rw [keep_y h hl hy]
    exact ⟨h.value_store_same _ _, nofun, fun v hv _ => h.value_store_ne _ hv⟩
  | some vn =>
    have hne : l.vd ≠ vn := fun heq => hvn (heq ▸ hl)
    rw [keep_y_n h hl hy hn]
    refine ⟨?_, fun vn' hvn' => ?_, fun v hv hv' => ?_⟩
    · rw [HostVectors.value_store_ne _ _ hne, HostVectors.value_store_same]
    · obtain rfl : vn = vn' := by simpa using hvn'
      exact HostVectors.value_store_same _ _ _
    · rw [HostVectors.value_store_ne _ _ (fun heq => hv' (congrArg some heq.symm)), HostVectors.value_store_ne _ _ hv]

theorem broadcast_zero : broadcast 0x0000#16 = 0#128 := by decide

/-- A line presents its command, A from va and B from vb, or zeros (R85). -/
theorem AsmLine.presentation_eq {h : HostVectors} {a b : Vec} (ha : h.value l.va = some a)
    (hzero : l.vb = none → b = 0#128) (hb : ∀ vb, l.vb = some vb → h.value vb = some b) :
    l.presentation h = ⟨some (encode l.instr), some a, some b⟩ := by
  cases hl : l.vb with
  | none => simp [presentation, hl, ha, hzero hl, broadcast_zero]
  | some vb => simp [presentation, hl, ha, hb vb hl]

theorem runProgram_single {h : HostVectors} {s : State}
    (hstep : step { s with pending := [.command (l.presentation h)] } = .next t) :
    runProgram [l] h s = .next (l.keep t h, t) := by
  simp [runProgram, hstep]

end

/-- Settles O54: the line's presentation is whole, so its command runs, and the host keeps what R85 names. -/
theorem assemblerLineRunsItsCommand : Obligations.AssemblerLineRunsItsCommand := by
  intro l h s a b hm ha hzero hb hvn
  have hpres := AsmLine.presentation_eq ha hzero hb
  obtain ⟨t, hstep, hexec, -, -⟩ := step_command_whole (s := { s with pending := [.command (l.presentation h)] })
    hm (by rw [hpres]) (decode_encode l.instr)
  obtain ⟨a', b', yv, nv, d, -, -, rfl⟩ := exec_next hexec
  exact ⟨_, _, yv, nv, runProgram_single hstep, hexec, rfl, rfl, AsmLine.keep_value h rfl rfl hvn⟩

end Sys2Proof.Machine

/-! SUPPORT. Serialized ports, presentations, the order of commands and several instances (R62 to R65, R67). -/

namespace Sys2Proof.Machine

/-! A port as bytes (R62). -/

@[simp] theorem get_toBytes (v : Vec) (j : Fin 16) : (toBytes v).get j = portByte v j :=
  Vector.get_ofFn _ j

/-- A lane is its high byte above its low byte. -/
theorem lane_eq_bytes (v : Vec) (i : Lane) :
    lane v i = portByte v ⟨2 * i.val + 1, by omega⟩ ++ portByte v ⟨2 * i.val, by omega⟩ := by
  have hlow : 16 * i.val = 8 * (2 * i.val) := by omega
  have hhigh : 8 * (2 * i.val + 1) = 8 * (2 * i.val) + 8 := by omega
  rw [lane, portByte, portByte, hlow, BitVec.extractLsb'_append_extractLsb'_eq_extractLsb' hhigh]

theorem ofBytes_toBytes (v : Vec) : ofBytes (toBytes v) = v := by
  refine vec_ext_lanes fun i => ?_
  rw [ofBytes, lane_ofLanes, get_toBytes, get_toBytes, ← lane_eq_bytes]

/-- Settles O36: a port's bytes are its 8-bit slices, two of which make a lane, and a vector is its lanes. -/
theorem serializedPortsAreLittleEndian : Obligations.SerializedPortsAreLittleEndian := fun v =>
  ⟨get_toBytes v, lane_eq_bytes v, ofBytes_toBytes v⟩

/-! Presentations (R63, R64). -/

theorem State.sample_eq {s : State} {m : HostMove} {rest : List HostMove} (hp : s.pending = m :: rest)
    (p : Presentation) : s.sample p = { s with ports := p, pending := rest } := by
  rw [State.sample, hp, List.tail_cons]

/-- Settles O42: the step presents the word, and sampling uses the move up. -/
theorem stepRunsTheDecodedCommand : Obligations.StepRunsTheDecodedCommand := by
  intro s p rest w i hm hp hc hd
  rw [step_command hm hp hc hd, State.sample_eq hp]

theorem whole_iff (p : Presentation) :
    p.whole = true ↔ ∃ w a b, p.cmd = some w ∧ p.a = some a ∧ p.b = some b := by
  simp [Presentation.whole, Option.isSome_iff_exists, and_assoc]

/-- Only a whole presentation completes (R63). -/
theorem presentCommand_next_whole {s t : State} {p : Presentation} (h : presentCommand s p = .next t) :
    p.whole = true := by
  obtain ⟨w, i, -, hc, -, he⟩ := presentCommand_next h
  obtain ⟨a, b, yv, nv, d, ha, hb, -⟩ := exec_next he
  exact (whole_iff p).2 ⟨w, a, b, hc, ha, hb⟩

/-- A presentation that is not whole is refused: it neither completes nor faults. -/
theorem presentCommand_refused_of_not_whole (s : State) {p : Presentation} (hw : p.whole = false) :
    ∃ r, presentCommand s p = .refused r := by
  cases h : presentCommand s p with
  | next t => exact absurd (presentCommand_next_whole h) (by simp [hw])
  | fault f => exact absurd h (presentCommand_ne_fault s p f)
  | refused r => exact ⟨r, rfl⟩

/-- A recorded refusal sets the mark and uses the move up, and changes nothing else (R84). -/
theorem stepRecorded_refused_eq {s : State} {m : HostMove} {rest : List HostMove} {r : Refusal}
    (hp : s.pending = m :: rest) (h : step s = .refused r) :
    stepRecorded s = { s with pending := rest, refusalMark := true } := by
  rw [stepRecorded_refused h, State.dropMove, hp, List.tail_cons, State.markRefused]

/-- Settles O45: what completes is whole and no command faults, so the rest is refused and recorded. -/
theorem partialPresentationIsRefused : Obligations.PartialPresentationIsRefused := by
  intro s p rest hp hw
  obtain ⟨r, hr⟩ := presentCommand_refused_of_not_whole s hw
  have hstep : step s = .refused r := (step_move hp).trans hr
  exact ⟨⟨r, hstep⟩, stepRecorded_refused_eq hp hstep⟩

/-! The order of commands (R65). -/

theorem sameOutputLane.symm {s t : State} {k : Lane} (h : sameOutputLane s t k) : sameOutputLane t s k :=
  ⟨h.1.symm, h.2.symm⟩

/-- Sampling a whole presentation makes any state ready for a command. -/
theorem operandsWhole_sample {p : Presentation} {a : Vec} (hw : p.whole = true) (ha : p.a = some a) :
    ∃ b, ∀ s : State, (s.sample p).operandsWhole a b := by
  obtain ⟨w, a', b, -, -, hb⟩ := (whole_iff p).1 hw
  exact ⟨b, fun s => ⟨ha, hb⟩⟩

/-- A command completes after another, and gives then on its fixed lanes what it gives alone: the other keeps the ROM
(R40). -/
theorem exec_after_exec {i j : Instr} {s alone t : State} {p q : Presentation} {a b : Vec}
    (hp : ∀ u : State, (u.sample p).operandsWhole a b) (halone : exec i (s.sample p) = .next alone)
    (hother : exec j (s.sample q) = .next t) :
    ∃ after, exec i (t.sample p) = .next after ∧
      ∀ k, laneIsFixed i (lane a k) = true → sameOutputLane alone after k := by
  obtain ⟨yv, nv, d, hafter⟩ := exec_whole i (hp t)
  have hrom : (s.sample q).sameRom t := exec_sameRom hother
  exact ⟨_, hafter, fun k => exec_sameOutputLane (hp s) (hp t) hrom halone hafter⟩

/-- Settles O50: each command alone against itself after the other. -/
theorem commandOrderDoesNotMatter : Obligations.CommandOrderDoesNotMatter := by
  intro i j s p q a a' hpw hqw hpa hqa
  obtain ⟨b, hp⟩ := operandsWhole_sample hpw hpa
  obtain ⟨b', hq⟩ := operandsWhole_sample hqw hqa
  obtain ⟨yv, nv, d, hfirst⟩ := exec_whole i (hp s)
  obtain ⟨yv', nv', d', hfirst'⟩ := exec_whole j (hq s)
  obtain ⟨s2, hs2, hjlanes⟩ := exec_after_exec hq hfirst' hfirst
  obtain ⟨t2, ht2, hilanes⟩ := exec_after_exec hp hfirst hfirst'
  exact ⟨_, s2, _, t2, hfirst, hs2, hfirst', ht2, fun k => ⟨hilanes k, fun hk => (hjlanes k hk).symm⟩⟩

/-! Several instances (R67). -/

/-- Settles O52: a step of an instance is a change at its place in the list. -/
theorem instancesShareNothing : Obligations.InstancesShareNothing := by
  intro k fleet
  refine ⟨List.length_modify _ _ _, fun j hj => List.getElem?_modify_ne _ _ hj.symm, fun s hs => ?_,
    fun j hj => List.modify_modify_ne _ _ _ hj.symm⟩
  rw [stepInstance, List.getElem?_modify_eq, hs, Option.map_eq_map, Option.map_some]

end Sys2Proof.Machine

/-! SUPPORT. The encoding of commands (R80 to R84), POLY with a table on port B (R82), and what a refusal records
(R84, R231, R236). -/

namespace Sys2Proof.Machine

open Sys2Proof.Claims

/-- Settles O40: a record of a refusal or a fault is no field the invariant reads. -/
theorem recordedStepKeepsTheInvariant : Obligations.RecordedStepKeepsTheInvariant := by
  intro s hinv
  cases h : step s with
  | next t => rw [stepRecorded_next h]; exact stepKeepsTheInvariant s t hinv h
  | fault f => rw [stepRecorded_fault h]; exact hinv.congr ⟨rfl, rfl, rfl⟩ rfl rfl rfl
  | refused r => rw [stepRecorded_refused h]; exact hinv.congr ⟨rfl, rfl, rfl⟩ rfl rfl rfl

/-! A table on port B (R82). -/

theorem coefficients_tableAsPort (s : State) (t : CoefTable) : coefficients s (tableAsPort t) .portB = t.get :=
  funext fun k => lane_ofLanes _ k

/-- A source that holds a table gives what POLY gives with that table on port B. -/
theorem evalPoly_eq_poly_of_table {s : State} {a b : Vec} {src : CoefSource} {t : CoefTable}
    (h : s.operandsWhole a b) (hsrc : coefficients s b src = t.get) :
    ∃ u v, evalPoly s src = .next u ∧
      exec .poly { s with ports := { s.ports with b := some (tableAsPort t) } } = .next v ∧ u.y = v.y ∧ u.n = v.n := by
  obtain ⟨ha, hb⟩ := h
  refine ⟨_, _, mapLanes_whole _ ha hb, (exec_poly _).trans (mapLanes_whole _ ha rfl), ?_, ?_⟩
  · rw [State.writeOutputs_y, State.writeOutputs_y, hsrc, coefficients_tableAsPort]
  · rw [State.writeOutputs_n, State.writeOutputs_n]

/-- Settles O21, for each of the two tables. -/
theorem polyWithATableOnBIsTheTableCommand : Obligations.PolyWithATableOnBIsTheTableCommand := by
  intro s a b h
  obtain ⟨e, e', he, he', hey, hen⟩ := evalPoly_eq_poly_of_table h (coefficients_expTable s b)
  obtain ⟨l, l', hl, hl', hly, hln⟩ := evalPoly_eq_poly_of_table h (coefficients_logTable s b)
  exact ⟨e, e', l, l', he, he', hl, hl', hey, hen, hly, hln⟩

/-! Defined and reserved words (R80 to R84). -/

/-- Settles O1, with the decoder's inverse. -/
theorem decodeAndEncodeAgree : Obligations.DecodeAndEncodeAgree :=
  ⟨decode_encode, fun _ _ => encode_of_decode⟩

/-- Settles O2: each word is its command's. -/
theorem wordsOfTheTableDecode : Obligations.WordsOfTheTableDecode :=
  ⟨decode_encode .recipm, decode_encode .polyE, decode_encode .polyL, decode_encode .split, decode_encode .log,
    decode_encode .exp⟩

/-- The defined words are the words of the commands. -/
theorem mem_definedWords_iff (w : Byte) : w ∈ definedWords ↔ ∃ i, decode w = .ok i := by
  have hwords : definedWords = Instr.all.map encode := by decide
  rw [hwords, List.mem_map]
  constructor
  · rintro ⟨i, -, rfl⟩
    exact ⟨i, decode_encode i⟩
  · rintro ⟨i, hd⟩
    exact ⟨i, by cases i <;> decide, encode_of_decode hd⟩

theorem decode_error_iff (w : Byte) : (∃ why, decode w = .error why) ↔ w ∉ definedWords := by
  rw [mem_definedWords_iff]
  cases decode w <;> simp

theorem op_eq_two_iff (op : BitVec 4) : op = 2#4 ↔ op.toNat = 2 := BitVec.toNat_inj.symm

theorem csrc_eq_three_iff (csrc : BitVec 2) : csrc = 3#2 ↔ ¬csrc.toNat < 3 := by bv_omega

/-- Well-formed fields: RSV is 00, OP is defined, and CSRC is a coefficient source for OP 0x2 and 00 for another OP. -/
theorem wf_iff (f : CmdFields) :
    f.wf = true ↔ f.rsv = 0#2 ∧ f.op.toNat < 6 ∧ if f.op.toNat = 2 then f.csrc.toNat < 3 else f.csrc = 0#2 := by
  by_cases h : f.op.toNat = 2 <;>
    simp [CmdFields.wf, CmdFields.rsvClear, CmdFields.opDefined, CmdFields.csrcDefined, op_eq_two_iff,
      csrc_eq_three_iff, h, and_assoc]

/-- A command without a coefficient source takes CSRC 00 alone. -/
theorem plainOp_ok_iff (c : BitVec 2) (i : Instr) : (∃ j, plainOp c i = .ok j) ↔ c = 0#2 := by
  by_cases hc : c = 0#2 <;> simp [plainOp, hc]

/-- The fields that decode are the well-formed ones: arm by arm of the tables of R81 and R82. -/
theorem decodeFields_ok_iff (f : CmdFields) : (∃ i, decodeFields f = .ok i) ↔ f.wf = true := by
  rw [wf_iff, decodeFields]
  split
  next hrsv =>
    replace hrsv : f.rsv ≠ 0#2 := by simpa using hrsv
    simp [hrsv]
  next hrsv =>
    replace hrsv : f.rsv = 0#2 := by simpa using hrsv
    split
    case h_3 hop =>
      split
      case h_4 =>
        simp only [imp_false] at *
        have hcsrc : ¬f.csrc.toNat < 3 := by omega
        simp [hop, hcsrc]
      all_goals simp [*]
    case h_7 =>
      simp only [imp_false] at *
      have hop : ¬f.op.toNat < 6 := by omega
      simp [hop]
    all_goals simp [plainOp_ok_iff, *]

/-- R84's four kinds are the ways a word's fields can fail to be well formed. -/
theorem reservedWord_iff (w : Byte) : reservedWord w ↔ ¬(fieldsOf w).wf = true := by
  simp only [wf_iff, reservedWord, fieldsOf, ne_eq, op_eq_two_iff, csrc_eq_three_iff]
  split <;> grind

/-- Settles O3: well-formed fields, words that decode and defined words are the same. -/
theorem reservedWordsAreTheFourKinds : Obligations.ReservedWordsAreTheFourKinds := by
  intro w
  have hwf : (fieldsOf w).wf = true ↔ w ∈ definedWords :=
    (decodeFields_ok_iff _).symm.trans (mem_definedWords_iff w).symm
  have hres : reservedWord w ↔ w ∉ definedWords := by rw [reservedWord_iff, hwf]
  exact ⟨(decode_error_iff w).trans hres.symm, hres, hwf⟩

/-! Refusals (R84, R231, R236). -/

theorem step_reserved {s : State} {p : Presentation} {rest : List HostMove} {w : Byte} {why : DecodeReject}
    (hm : s.notRefused) (hp : s.pending = .command p :: rest) (hc : p.cmd = some w) (hd : decode w = .error why) :
    step s = .refused (.reservedCommand w why) := by
  have hm' : s.refusalMark = false := hm
  simp [step_move hp, makeMove, presentCommand, hm', hc, hd]

/-- Settles O43: a reserved word does not decode, and its refusal is recorded. -/
theorem reservedWordIsRefusedAndMarked : Obligations.ReservedWordIsRefusedAndMarked := by
  intro s p rest w hm hp hc hw
  obtain ⟨why, hd⟩ := (reservedWordsAreTheFourKinds w).1.2 hw
  have hstep := step_reserved hm hp hc hd
  exact ⟨⟨why, hstep⟩, stepRecorded_refused_eq hp hstep⟩

theorem step_runEnded {s : State} {p : Presentation} {rest : List HostMove} (hm : s.refusalMark = true)
    (hp : s.pending = .command p :: rest) : step s = .refused .runEnded := by
  rw [step_move hp, makeMove, presentCommand, if_pos hm]

/-- With the mark set, a step that completes and is no reset was idle or a read: it keeps the mark and the outputs. -/
theorem step_next_of_refused {s t : State} (hm : s.refusalMark = true) (hr : ∀ rest, s.pending ≠ .reset :: rest)
    (h : step s = .next t) : t.refusalMark = true ∧ t.y = s.y ∧ t.n = s.n := by
  obtain ⟨-, rfl⟩ | ⟨p, rest, w, i, -, hclear, -, -, -⟩ | ⟨port, rest, v, -, -, rfl⟩ | ⟨rest, hp, -⟩ :=
    step_next_cases h
  · exact ⟨hm, rfl, rfl⟩
  · simp [hm] at hclear
  · exact ⟨hm, rfl, rfl⟩
  · exact absurd hp (hr rest)

/-- Settles O44: the recorded step by its outcome, and a command by the mark. -/
theorem refusalMarkStaysForTheRun : Obligations.RefusalMarkStaysForTheRun := by
  intro s hm hr
  have hkeep : (stepRecorded s).refusalMark = true ∧ (stepRecorded s).y = s.y ∧ (stepRecorded s).n = s.n := by
    cases h : step s with
    | next t => rw [stepRecorded_next h]; exact step_next_of_refused hm hr h
    | fault f => rw [stepRecorded_fault h]; exact ⟨hm, rfl, rfl⟩
    | refused r => rw [stepRecorded_refused h]; exact ⟨rfl, rfl, rfl⟩
  obtain ⟨hmark, hy, hn⟩ := hkeep
  exact ⟨hmark, hy, hn, fun p rest => step_runEnded hm⟩

end Sys2Proof.Machine

/-! SUPPORT. The reciprocal engine (R100 to R106): exact values of the floating-point primitives, the initial guess, and
the Newton-Raphson passes. -/

namespace Sys2Proof.Machine

open Sys2Proof.Claims

theorem isZero_eq_false_of_expOf_ne_zero {a : Half} (h : expOf a ≠ 0) : isZero a = false := by
  rw [← Bool.not_eq_true, isZero_iff]
  omega

/-! What FABS and FNEG keep (R10). -/

theorem fabs_toNat (a : Half) : (fabs a).toNat = a.toNat % 32768 := by
  rw [fabs, BitVec.toNat_and]
  exact Nat.and_two_pow_sub_one_eq_mod a.toNat 15

@[simp] theorem signOf_fabs (a : Half) : signOf (fabs a) = false := by
  rw [signOf_eq, fabs_toNat, decide_eq_false_iff_not]
  omega

@[simp] theorem expOf_fabs (a : Half) : expOf (fabs a) = expOf a := by
  rw [expOf_eq, expOf_eq, fabs_toNat]
  omega

@[simp] theorem manOf_fabs (a : Half) : manOf (fabs a) = manOf a := by
  rw [manOf_eq, manOf_eq, fabs_toNat]
  omega

@[simp] theorem classOf_fabs (a : Half) : classOf (fabs a) = classOf a := by simp [classOf]

@[simp] theorem isNaN_fabs (a : Half) : isNaN (fabs a) = isNaN a := by simp [isNaN]

@[simp] theorem isNaN_fneg (a : Half) : isNaN (fneg a) = isNaN a := by simp [isNaN]

@[simp] theorem isInf_fneg (a : Half) : isInf (fneg a) = isInf a := by simp [isInf]

@[simp] theorem isZero_fneg (a : Half) : isZero (fneg a) = isZero a := by simp [isZero]

@[simp] theorem isFinite_fneg (a : Half) : isFinite (fneg a) = isFinite a := by simp [isFinite]

@[simp] theorem valueUnits_fneg (a : Half) : valueUnits (fneg a) = -valueUnits a := by
  have hmag : magUnits (fneg a) = magUnits a := by simp [magUnits]
  cases hs : signOf a <;> simp [valueUnits, hs, hmag]

/-- A pattern is fixed by its three fields (R5). -/
theorem half_ext_fields {a b : Half} (hs : signOf a = signOf b) (he : expOf a = expOf b) (hm : manOf a = manOf b) :
    a = b :=
  BitVec.eq_of_toNat_eq (by rw [toNat_fields a, toNat_fields b, hs, he, hm])

theorem fabs_of_signOf_false {a : Half} (hs : signOf a = false) : fabs a = a :=
  half_ext_fields (by simp [hs]) (by simp) (by simp)

/-! The magnitude adjustment `m` of R100 and the pattern it normalises `|x|` to. -/

theorem toNat_and16_exponent (a : Half) : (and16 a 0x7C00#16).toNat = expOf a * 1024 := by
  have hshift : and16 a 0x7C00#16 = a >>> 10 <<< 11 >>> 1 := by
    apply BitVec.eq_of_getLsbD_eq
    intro i hi
    interval_cases i <;> simp [and16]
  rw [hshift, expOf_eq, BitVec.toNat_ushiftRight, BitVec.toNat_shiftLeft, BitVec.toNat_ushiftRight,
    Nat.shiftRight_eq_div_pow, Nat.shiftRight_eq_div_pow, Nat.shiftLeft_eq]
  omega

theorem asS16_of_toNat_lt {a : Half} (h : a.toNat < 32768) : asS16 a = a.toNat :=
  BitVec.toInt_eq_toNat_of_lt (by omega)

/-- `m` moves the exponent field E to that of [1, 2) (R100). -/
theorem asS16_recipBias (a : Half) : asS16 (recipBias a) = (15 - (expOf a : Int)) * 1024 := by
  have he := expOf_lt a
  have hexp : asS16 (and16 a 0x7C00#16) = expOf a * 1024 := by
    rw [asS16_of_toNat_lt] <;> rw [toNat_and16_exponent] <;> omega
  have hone : asS16 0x3C00#16 = 15360 := by decide
  rw [recipBias, sub16, hexp, hone, asS16_asU16_of_range] <;> omega

theorem asS16_recipBias_fabs (x : Half) : asS16 (recipBias (fabs x)) = (15 - (expOf x : Int)) * 1024 := by
  rw [asS16_recipBias, expOf_fabs]

/-- Addition to a pattern wraps in 16 bits (R15). -/
theorem toNat_add16 (a b : Half) : ((add16 a b).toNat : Int) = (a.toNat + asS16 b) % 65536 := by
  rw [add16_eq, BitVec.toNat_add, asS16, BitVec.toInt_eq_toNat_cond]
  split <;> omega

/-- Whole binades added to the pattern of a positive number: the mantissa field stays, and the exponent field moves
with the sign bit above it (R15, R100). -/
theorem fields_add16_binades {y m : Half} {k : Int} (hs : signOf y = false) (hm : asS16 m = k * 1024) :
    manOf (add16 y m) = manOf y ∧
      (if signOf (add16 y m) then 32 else 0) + (expOf (add16 y m) : Int) = (expOf y + k) % 64 := by
  have hy := toNat_fields y
  have hsum := toNat_add16 y m
  have hman := manOf_lt y
  simp only [hs, hm, Bool.false_eq_true, if_false] at hy hsum
  rw [signOf_eq, manOf_eq (add16 y m), expOf_eq (add16 y m)]
  simp only [decide_eq_true_eq]
  split <;> omega

/-- While the exponent field stays in its range, only it moves. -/
theorem fields_add16_binades_in_range {y m : Half} {k : Int} (hs : signOf y = false) (hm : asS16 m = k * 1024)
    (hlo : 0 ≤ expOf y + k) (hhi : expOf y + k ≤ 31) :
    signOf (add16 y m) = false ∧ (expOf (add16 y m) : Int) = expOf y + k ∧ manOf (add16 y m) = manOf y := by
  have hlt := expOf_lt (add16 y m)
  obtain ⟨hman, hexp⟩ := fields_add16_binades hs hm
  cases hr : signOf (add16 y m)
  · rw [hr, if_neg (by simp)] at hexp
    exact ⟨rfl, by omega, hman⟩
  · rw [hr, if_pos rfl] at hexp
    omega

/-- The pattern of 1 + m / 1024. -/
def onePlus (m : Nat) : Half := 0x3C00#16 ||| BitVec.ofNat 16 m

theorem onePlus_toNat {m : Nat} (hm : m < 1024) : (onePlus m).toNat = 15360 + m := by
  rw [onePlus, BitVec.toNat_or, BitVec.toNat_ofNat, BitVec.toNat_ofNat, Nat.mod_eq_of_lt (by omega : m < 2 ^ 16)]
  exact (Nat.two_pow_add_eq_or_of_lt (i := 10) hm 15).symm

theorem onePlus_fields {m : Nat} (hm : m < 1024) :
    signOf (onePlus m) = false ∧ expOf (onePlus m) = 15 ∧ manOf (onePlus m) = m := by
  rw [signOf_eq, expOf_eq, manOf_eq, onePlus_toNat hm, decide_eq_false_iff_not]
  omega

/-- The first ADD16 of R100 gives 1 + M / 1024, whatever the exponent field. -/
theorem add16_fabs_recipBias (x : Half) : add16 (fabs x) (recipBias (fabs x)) = onePlus (manOf x) := by
  have hlt := expOf_lt x
  obtain ⟨hs, he, hm⟩ := onePlus_fields (manOf_lt x)
  obtain ⟨hsign, hexp, hman⟩ := fields_add16_binades_in_range (signOf_fabs x) (asS16_recipBias_fabs x)
    (by rw [expOf_fabs]; omega) (by rw [expOf_fabs]; omega)
  rw [expOf_fabs] at hexp
  exact half_ext_fields (by rw [hsign, hs]) (by omega) (by rw [hman, hm, manOf_fabs])

/-- Settles O14: `m` by its exact value, and the sum by its three fields. -/
theorem reciprocalNormalisesTheMantissa : Obligations.ReciprocalNormalisesTheMantissa := fun x =>
  ⟨add16_fabs_recipBias x, asS16_recipBias_fabs x⟩

/-! FMUL and FMA on infinities and on finite operands (R8, R9). -/

theorem fmul_of_isInf_right {a b : Half} (han : isNaN a = false) (ha0 : isZero a = false) (hb : isInf b = true) :
    fmul a b = withSign (signOf a ^^ signOf b) 0x7C00 := by
  simp [fmul, han, ha0, hb, isNaN_eq_false_of_isInf, isZero_eq_false_of_isInf]

theorem fma_of_isInf {a b c : Half} (ha : isInf a = true) (hb : isFinite b = true) (hb0 : isZero b = false)
    (hc : isFinite c = true) : fma a b c = withSign (signOf a ^^ signOf b) 0x7C00 := by
  simp [fma, ha, hb0, isNaN_eq_false_of_isInf ha, isZero_eq_false_of_isInf ha, isNaN_eq_false_of_isFinite hb,
    isNaN_eq_false_of_isFinite hc, isInf_eq_false_of_isFinite hc]

theorem fmul_of_isFinite {a b : Half} (ha : isFinite a = true) (hb : isFinite b = true) (ha0 : isZero a = false)
    (hb0 : isZero b = false) :
    fmul a b = roundH (valueUnits a * valueUnits b) (unitDen * unitDen) (signOf a ^^ signOf b) := by
  simp [fmul, ha0, hb0, isNaN_eq_false_of_isFinite, isInf_eq_false_of_isFinite, ha, hb]

theorem fma_of_isFinite {a b c : Half} (ha : isFinite a = true) (hb : isFinite b = true) (hc : isFinite c = true)
    (hn : fmaExact a b c ≠ 0) : fma a b c = roundH (fmaExact a b c) (unitDen * unitDen) false := by
  simp [fma, hn, isNaN_eq_false_of_isFinite, isInf_eq_false_of_isFinite, ha, hb, hc]

/-! The passes (R100, step 3): what one pass keeps, all keep. -/

theorem nrPasses_invariant {P : Half → Prop} {rom : ConstRom} {ax : Half}
    (hpass : ∀ y, P y → P (nrPass rom ax y)) : ∀ (k : Nat) (y : Half), P y → P (nrPasses rom ax k y)
  | 0, _, hy => hy
  | k + 1, y, hy => nrPasses_invariant hpass k _ (hpass y hy)

/-- A NaN argument makes every pass a NaN. -/
theorem nrPasses_of_isNaN (rom : ConstRom) {ax : Half} (y : Half) {k : Nat} (hx : isNaN ax = true) (hk : k ≠ 0) :
    nrPasses rom ax k y = defaultNaN := by
  have hpass (z : Half) : nrPass rom ax z = defaultNaN := by
    have hr : fma (fneg z) ax rom.two = defaultNaN := fma_of_isNaN (.inr (.inl hx))
    rw [nrPass, hr]
    exact fmul_of_isNaN (.inr (by decide))
  obtain ⟨j, rfl⟩ := Nat.exists_eq_succ_of_ne_zero hk
  exact nrPasses_invariant (P := (· = defaultNaN)) (fun z _ => hpass z) j _ (hpass y)

/-! RECIP_CORE by the class of its argument (R104, R106). -/

theorem ltz_of_isZero {x : Half} (h : isZero x = true) : ltz x = false := by simp [ltz, h]

theorem ltz_of_isNaN {x : Half} (h : isNaN x = true) : ltz x = false := by simp [ltz, h]

theorem recipCore_of_isZero (rom : ConstRom) {x : Half} (k : Nat) (h : isZero x = true) :
    recipCore rom x k = rom.pinf := by
  simp [recipCore, select, eqz_eq_isZero, ltz_of_isZero, h]

theorem recipCore_of_isNaN (rom : ConstRom) {x : Half} {k : Nat} (hk : k ≠ 0) (h : isNaN x = true) :
    recipCore rom x k = defaultNaN := by
  have hpasses := nrPasses_of_isNaN rom (recipGuess rom (fabs x)) (show isNaN (fabs x) = true by simpa) hk
  simp [recipCore, select, eqz_eq_isZero, isZero_eq_false_of_isNaN, ltz_of_isNaN, h, hpasses]

/-- Off the zeros and NaNs the passes run on `|x|`, and the sign bit decides the negation. -/
theorem recipCore_of_value (rom : ConstRom) {x : Half} (k : Nat) (hz : isZero x = false) (hn : isNaN x = false) :
    recipCore rom x k = select (signOf x) (fneg (nrPasses rom (fabs x) k (recipGuess rom (fabs x))))
      (nrPasses rom (fabs x) k (recipGuess rom (fabs x))) := by
  simp [recipCore, select, eqz_eq_isZero, ltz, hz, hn]

theorem recipCore_fneg (rom : ConstRom) {x : Half} (k : Nat) (hz : isZero x = false) (hn : isNaN x = false) :
    recipCore rom x k = fneg (recipCore rom (fneg x) k) := by
  rw [recipCore_of_value rom k hz hn, recipCore_of_value rom k (by simpa) (by simpa), fabs_fneg, signOf_fneg]
  cases signOf x <;> simp [select]

/-- Settles O13: the passes see only `|x|`, and a NaN passes through them. -/
theorem reciprocalIsSignAntisymmetric : Obligations.ReciprocalIsSignAntisymmetric := by
  intro x k hk
  exact ⟨recipCore_fneg constRomValues k, recipCore_of_isZero constRomValues k,
    recipCore_of_isNaN constRomValues (by omega)⟩

/-! Positive finite patterns by their magnitudes: FMUL and FMA as one rounding of the exact number of units
(R6, R8, R9). -/

/-- The magnitude that RoundH gives for num / den below the overflow threshold, as a count of 2^-24. -/
def roundUnits (num den : Nat) : Nat := roundQuanta num den * 2 ^ roundShift num den

/-- `h` is a finite pattern without a sign, of `u` units. -/
structure HasUnits (h : Half) (u : Nat) : Prop where
  sign : signOf h = false
  finite : isFinite h = true
  mag : magUnits h = u

section
variable {a b c : Half} {u v w : Nat}

theorem HasUnits.valueUnits_eq (h : HasUnits a u) : valueUnits a = u := by
  rw [valueUnits_of_signOf_false h.sign, h.mag]

theorem HasUnits.isZero_eq_false (h : HasUnits a u) (hu : u ≠ 0) : isZero a = false := by
  rw [← Bool.not_eq_true, ← magUnits_eq_zero_iff, h.mag]
  exact hu

theorem hasUnits_roundH {num den : Nat} (zs : Bool) (hn : num ≠ 0) (hd : 0 < den) (hlt : num < 65520 * den) :
    HasUnits (roundH num den zs) (roundUnits num den) := by
  have hn' : (num : Int) ≠ 0 := by omega
  refine ⟨?_, isFinite_roundH zs hn' hd hlt, ?_⟩
  · rw [signOf_roundH zs hn' hd hlt]
    simp
  · rw [roundH_of_ne_zero hn']
    exact magUnits_roundMagnitude _ hd hlt

theorem hasUnits_fmul (ha : HasUnits a u) (hb : HasUnits b v) (hn : u * v ≠ 0)
    (hlt : u * v < 65520 * (unitDen * unitDen)) : HasUnits (fmul a b) (roundUnits (u * v) (unitDen * unitDen)) := by
  obtain ⟨hu, hv⟩ := Nat.mul_ne_zero_iff.1 hn
  rw [fmul_of_isFinite ha.finite hb.finite (ha.isZero_eq_false hu) (hb.isZero_eq_false hv), ha.valueUnits_eq,
    hb.valueUnits_eq, ← Int.natCast_mul]
  exact hasUnits_roundH _ hn (Nat.mul_pos unitDen_pos unitDen_pos) hlt

/-- The fused c - a * b where it is positive. -/
theorem hasUnits_fma_fneg (ha : HasUnits a u) (hb : HasUnits b v) (hc : HasUnits c w) (hpos : u * v < w * unitDen)
    (hw : w < 65520 * unitDen) :
    HasUnits (fma (fneg a) b c) (roundUnits (w * unitDen - u * v) (unitDen * unitDen)) := by
  have hexact : fmaExact (fneg a) b c = ((w * unitDen - u * v : Nat) : Int) := by
    rw [fmaExact, valueUnits_fneg, ha.valueUnits_eq, hb.valueUnits_eq, hc.valueUnits_eq, Nat.cast_sub hpos.le]
    push_cast
    ring
  have hlt : w * unitDen < 65520 * (unitDen * unitDen) := by
    rw [← mul_assoc]
    exact Nat.mul_lt_mul_of_pos_right hw unitDen_pos
  rw [fma_of_isFinite (by simpa using ha.finite) hb.finite hc.finite (by omega), hexact]
  exact hasUnits_roundH _ (by omega) (Nat.mul_pos unitDen_pos unitDen_pos) (by omega)

/-- The error of a reciprocal is the gap between its magnitude and the exact quotient of 1 by the argument's. -/
theorem reciprocalError_eq (ha : HasUnits a u) (hb : HasUnits b v) :
    reciprocalError a b = quotientGap (unitDen * unitDen) v u := by
  rw [reciprocalError, quotientGap, ha.valueUnits_eq, hb.valueUnits_eq, ← Int.natAbs_neg, neg_sub]
  push_cast
  rfl

end

theorem magUnits_of_expOf_ne_zero {h : Half} (he : expOf h ≠ 0) :
    magUnits h = (1024 + manOf h) * 2 ^ (expOf h - 1) := if_neg he

theorem hasUnits_two : HasUnits constRomValues.two (2 ^ 25) := ⟨by decide, by decide, by decide⟩

theorem hasUnits_of_binade_one {x : Half} (hs : signOf x = false) (he : expOf x = 15) :
    HasUnits x ((1024 + manOf x) * 2 ^ 14) :=
  ⟨hs, by rw [isFinite_iff]; omega, by rw [magUnits_of_expOf_ne_zero (by omega), he]⟩

/-- The two binades of [1/4, 1) by the magnitude. -/
theorem expOf_of_magUnits {h : Half} (hlo : 2 ^ 22 ≤ magUnits h) (hhi : magUnits h < 2 ^ 24) :
    expOf h = 13 ∨ expOf h = 14 := by
  have hman := manOf_lt h
  by_cases he : expOf h = 0
  · simp only [magUnits, he, if_true] at hlo
    omega
  · rw [magUnits_of_expOf_ne_zero he] at hlo hhi
    have hle : expOf h - 1 < 14 := by
      by_contra hc
      have hpow : 2 ^ 14 ≤ 2 ^ (expOf h - 1) := Nat.pow_le_pow_right (by omega) (by omega)
      nlinarith
    have hge : 11 < expOf h - 1 := by
      by_contra hc
      have hpow : 2 ^ (expOf h - 1) ≤ 2 ^ 11 := Nat.pow_le_pow_right (by omega) (by omega)
      nlinarith
    omega

/-! The initial guess (R100, step 2). -/

/-- The affine step K1 - K2 * (1 + m / 1024) of R100. -/
def affineStep (m : Nat) : Half := fma (fneg constRomValues.k2) (onePlus m) constRomValues.k1

/-- The magnitude of the affine step: K1 and K2 are 23691264 and 7897088 units. -/
def affineUnits (m : Nat) : Nat :=
  roundUnits (23691264 * unitDen - 7897088 * ((1024 + m) * 2 ^ 14)) (unitDen * unitDen)

theorem hasUnits_affineStep {m : Nat} (hm : m < 1024) : HasUnits (affineStep m) (affineUnits m) := by
  obtain ⟨hs, he, hman⟩ := onePlus_fields hm
  have hx := hasUnits_of_binade_one hs he
  rw [hman] at hx
  have hk2 : HasUnits constRomValues.k2 7897088 := ⟨by decide, by decide, by decide⟩
  have hk1 : HasUnits constRomValues.k1 23691264 := ⟨by decide, by decide, by decide⟩
  exact hasUnits_fma_fneg hk2 hx hk1 (by unfold unitDen; omega) (by unfold unitDen; omega)

/-- R100's bound on the affine step, over the mantissa fields; the worst of them, near 1.5, leaves no room for an
estimate of the rounding. -/
theorem affineUnits_bounds : ∀ m < 1024, 2 ^ 22 ≤ affineUnits m ∧ affineUnits m < 2 ^ 24 ∧
    quotientGap (unitDen * unitDen) ((1024 + m) * 2 ^ 14) (affineUnits m) * 10000 ≤ 594 * 2 ^ 48 := by
  decide +kernel

/-- The affine step lies in [1/4, 1) (R100). -/
theorem expOf_affineStep {m : Nat} (hm : m < 1024) : expOf (affineStep m) = 13 ∨ expOf (affineStep m) = 14 := by
  obtain ⟨hlo, hhi, -⟩ := affineUnits_bounds m hm
  rw [← (hasUnits_affineStep hm).mag] at hlo hhi
  exact expOf_of_magUnits hlo hhi

/-- The guess is the affine step of the mantissa, moved by whole binades. -/
theorem recipGuess_fabs (x : Half) :
    recipGuess constRomValues (fabs x) = add16 (affineStep (manOf x)) (recipBias (fabs x)) := by
  rw [recipGuess, add16_fabs_recipBias, affineStep]

/-- For exponent fields 1 to 27 the move stays in the normal numbers. -/
theorem recipGuess_normal {x : Half} (hlo : 1 ≤ expOf x) (hhi : expOf x ≤ 27) :
    signOf (recipGuess constRomValues (fabs x)) = false ∧
      expOf (recipGuess constRomValues (fabs x)) = expOf (affineStep (manOf x)) + 15 - expOf x ∧
      manOf (recipGuess constRomValues (fabs x)) = manOf (affineStep (manOf x)) := by
  have hexp := expOf_affineStep (manOf_lt x)
  obtain ⟨hs, he, hman⟩ := fields_add16_binades_in_range (hasUnits_affineStep (manOf_lt x)).sign
    (asS16_recipBias_fabs x) (by omega) (by omega)
  rw [recipGuess_fabs]
  exact ⟨hs, by omega, hman⟩

/-- The moves of |x| to [1, 2) and of the affine step back cancel in the product. -/
theorem magUnits_recipGuess_mul {x : Half} (hlo : 1 ≤ expOf x) (hhi : expOf x ≤ 27) :
    magUnits (recipGuess constRomValues (fabs x)) * magUnits x =
      affineUnits (manOf x) * ((1024 + manOf x) * 2 ^ 14) := by
  have hexp := expOf_affineStep (manOf_lt x)
  obtain ⟨-, he, hman⟩ := recipGuess_normal hlo hhi
  have hpow : 2 ^ (expOf (affineStep (manOf x)) + 15 - expOf x - 1) * 2 ^ (expOf x - 1) =
      2 ^ (expOf (affineStep (manOf x)) - 1) * 2 ^ 14 := by
    rw [← pow_add, ← pow_add]
    congr 1
    omega
  rw [← (hasUnits_affineStep (manOf_lt x)).mag,
    magUnits_of_expOf_ne_zero (by omega : expOf (recipGuess constRomValues (fabs x)) ≠ 0),
    magUnits_of_expOf_ne_zero (by omega : expOf x ≠ 0),
    magUnits_of_expOf_ne_zero (by omega : expOf (affineStep (manOf x)) ≠ 0), hman, he, mul_mul_mul_comm, hpow]
  ring

/-- Settles O15: whole binades cancel in the product, so the mantissa decides the error. -/
theorem reciprocalGuessIsWithinSixPercent : Obligations.ReciprocalGuessIsWithinSixPercent := by
  intro x hs hlo hhi
  have hexp := expOf_affineStep (manOf_lt x)
  have hmul := magUnits_recipGuess_mul hlo hhi
  obtain ⟨hsign, he, -⟩ := recipGuess_normal hlo hhi
  obtain ⟨-, -, herr⟩ := affineUnits_bounds (manOf x) (manOf_lt x)
  rw [fabs_of_signOf_false hs] at hmul hsign he
  have hfin : isFinite (recipGuess constRomValues x) = true := by rw [isFinite_iff]; omega
  have hx : HasUnits x (magUnits x) := ⟨hs, by rw [isFinite_iff]; omega, rfl⟩
  refine ⟨?_, ?_⟩
  · rw [classOf, if_neg (by omega), if_neg (by omega)]
  · rw [reciprocalError_eq ⟨hsign, hfin, rfl⟩ hx, quotientGap, hmul]
    exact herr

/-! The passes on [1, 2) (R105). -/

/-- The residual 2 - y * ax of a pass, in units. -/
def residualUnits (v u : Nat) : Nat := roundUnits (2 ^ 25 * unitDen - u * v) (unitDen * unitDen)

/-- One pass on an argument of `v` units and a value of `u` units, where neither the residual nor the product leaves the
positive finite numbers. -/
def passUnits (v u : Nat) : Option Nat :=
  if u * v < 2 ^ 25 * unitDen ∧ u * residualUnits v u ≠ 0 ∧
      u * residualUnits v u < 65520 * (unitDen * unitDen) then
    some (roundUnits (u * residualUnits v u) (unitDen * unitDen))
  else none

/-- `k` passes (R100, step 3). -/
def passesUnits (v : Nat) : Nat → Nat → Option Nat
  | 0, u => some u
  | k + 1, u => (passUnits v u).bind (passesUnits v k)

section
variable {ax y : Half} {v u w : Nat}

theorem hasUnits_nrPass (hx : HasUnits ax v) (hy : HasUnits y u) (h : passUnits v u = some w) :
    HasUnits (nrPass constRomValues ax y) w := by
  obtain ⟨⟨hres, hne, hlt⟩, hw⟩ := Option.ite_none_right_eq_some.1 h
  rw [← Option.some.inj hw]
  exact hasUnits_fmul hy (hasUnits_fma_fneg hy hx hasUnits_two hres (by decide)) hne hlt

theorem hasUnits_nrPasses (hx : HasUnits ax v) {k : Nat} (hy : HasUnits y u) (h : passesUnits v k u = some w) :
    HasUnits (nrPasses constRomValues ax k y) w := by
  induction k generalizing y u with
  | zero => exact Option.some.inj h ▸ hy
  | succ k ih =>
    obtain ⟨u', hu', hrest⟩ := Option.bind_eq_some_iff.1 h
    exact ih (hasUnits_nrPass hx hy hu') hrest

end

/-- The error of `k` passes from the affine step, on the argument 1 + m / 1024, is at most num / den. -/
def passesWithin (k num den m : Nat) : Bool :=
  (passesUnits ((1024 + m) * 2 ^ 14) k (affineUnits m)).any fun w =>
    quotientGap (unitDen * unitDen) ((1024 + m) * 2 ^ 14) w * den ≤ num * 2 ^ 48

/-- R105's figures over the mantissa fields: the largest errors lie so close to them that only the exact roundings show
the bounds. -/
theorem passesWithin_bounds : ∀ m < 1024,
    passesWithin 3 7101 10000000 m = true ∧ passesWithin 4 664 1000000 m = true := by
  decide +kernel

/-- On [1, 2) the guess is the affine step itself. -/
theorem recipGuess_of_binade_one {x : Half} (hs : signOf x = false) (he : expOf x = 15) :
    recipGuess constRomValues x = affineStep (manOf x) := by
  have hbias : recipBias (fabs x) = 0#16 := by
    rw [← asU16_asS16 (recipBias (fabs x)), asS16_recipBias_fabs, he]
    rfl
  rw [← fabs_of_signOf_false hs, recipGuess_fabs, hbias, add16_eq, BitVec.add_zero, manOf_fabs]

theorem reciprocalError_of_passesWithin {x : Half} {k num den : Nat} (hs : signOf x = false) (he : expOf x = 15)
    (h : passesWithin k num den (manOf x) = true) :
    reciprocalError (recipCore constRomValues x k) x * den ≤ num * 2 ^ 48 := by
  obtain ⟨w, hw, herr⟩ := (Option.any_eq_true _ _).1 h
  have hx := hasUnits_of_binade_one hs he
  have hy : HasUnits (recipCore constRomValues x k) w := by
    rw [recipCore_of_value _ _ (hx.isZero_eq_false (by omega)) (isNaN_eq_false_of_isFinite hx.finite), hs,
      fabs_of_signOf_false hs, recipGuess_of_binade_one hs he]
    exact hasUnits_nrPasses hx (hasUnits_affineStep (manOf_lt x)) hw
  rw [reciprocalError_eq hy hx]
  exact of_decide_eq_true herr

/-- Settles O16: R105's figures on the mantissa fields. -/
theorem reciprocalErrorIsBoundedOnOneBinade : Obligations.ReciprocalErrorIsBoundedOnOneBinade := by
  intro x hs he
  obtain ⟨h3, h4⟩ := passesWithin_bounds (manOf x) (manOf_lt x)
  exact ⟨reciprocalError_of_passesWithin hs he h3, reciprocalError_of_passesWithin hs he h4⟩

/-! Huge arguments (R104, the row of E = 30). -/

/-- A pattern of the top binade with its sign bit set, -inf, or any NaN. -/
def HugeNegativeOrNaN (y : Half) : Prop := isNaN y = true ∨ (signOf y = true ∧ 30 ≤ expOf y)

/-- The guess wraps through the sign bit. -/
theorem recipGuess_of_huge {x : Half} (he : expOf x = 30) :
    HugeNegativeOrNaN (recipGuess constRomValues (fabs x)) := by
  have hexp := expOf_affineStep (manOf_lt x)
  obtain ⟨-, hfields⟩ := fields_add16_binades (hasUnits_affineStep (manOf_lt x)).sign (asS16_recipBias_fabs x)
  have hlt := expOf_lt (recipGuess constRomValues (fabs x))
  rw [← recipGuess_fabs] at hfields
  right
  cases hs : signOf (recipGuess constRomValues (fabs x))
  · rw [hs, if_neg (by simp)] at hfields
    omega
  · rw [hs, if_pos rfl] at hfields
    exact ⟨rfl, by omega⟩

theorem magUnits_ge_of_expOf_eq_thirty {h : Half} (he : expOf h = 30) : 2 ^ 39 ≤ magUnits h := by
  rw [magUnits_of_expOf_ne_zero (by omega), he]
  omega

section
variable {ax y : Half} (hs : signOf ax = false) (he : expOf ax = 30)
include hs he

/-- The residual 2 - y * ax overflows: y is -inf, or both factors are at least 2^15. -/
theorem residual_of_huge (hyn : isNaN y = false) (hys : signOf y = true) (hye : 30 ≤ expOf y) :
    fma (fneg y) ax constRomValues.two = 0x7C00#16 := by
  have hfin : isFinite ax = true := by rw [isFinite_iff]; omega
  obtain hy | hy | hy := class_trichotomy y
  · have hye' : expOf y = 30 := by rw [isFinite_iff] at hy; omega
    have hprod : 2 ^ 39 * 2 ^ 39 ≤ magUnits y * magUnits ax :=
      Nat.mul_le_mul (magUnits_ge_of_expOf_eq_thirty hye') (magUnits_ge_of_expOf_eq_thirty he)
    have hexact : fmaExact (fneg y) ax constRomValues.two =
        ((magUnits y * magUnits ax + 2 ^ 25 * unitDen : Nat) : Int) := by
      rw [fmaExact, valueUnits_fneg, valueUnits_of_signOf_true hys, valueUnits_of_signOf_false hs,
        hasUnits_two.valueUnits_eq]
      push_cast
      ring
    have hlarge : 65520 * (unitDen * unitDen) ≤ (fmaExact (fneg y) ax constRomValues.two).natAbs := by
      rw [hexact, Int.natAbs_natCast]
      unfold unitDen
      omega
    rw [fma_of_isFinite (by simpa) hfin hasUnits_two.finite (by omega),
      roundH_of_ge _ (Nat.mul_pos unitDen_pos unitDen_pos) hlarge, if_neg (by omega)]
  · rw [fma_of_isInf (by simpa) hfin (isZero_eq_false_of_expOf_ne_zero (by omega)) hasUnits_two.finite, signOf_fneg,
      hys, hs]
    rfl
  · simp [hyn] at hy

/-- On a huge argument a pass from such a value gives -inf or the default NaN. -/
theorem nrPass_of_huge (hy : HugeNegativeOrNaN y) :
    nrPass constRomValues ax y = 0xFC00#16 ∨ nrPass constRomValues ax y = defaultNaN := by
  cases hyn : isNaN y
  · obtain hn | ⟨hys, hye⟩ := hy
    · simp [hyn] at hn
    · have hz : isZero y = false := isZero_eq_false_of_expOf_ne_zero (by omega)
      left
      rw [nrPass, residual_of_huge hs he hyn hys hye, fmul_of_isInf_right hyn hz (by decide), hys]
      decide
  · exact .inr (fmul_of_isNaN (.inl hyn))

theorem nrPasses_of_huge {k : Nat} (hk : k ≠ 0) (hy : HugeNegativeOrNaN y) :
    nrPasses constRomValues ax k y = 0xFC00#16 ∨ nrPasses constRomValues ax k y = defaultNaN := by
  obtain ⟨j, rfl⟩ := Nat.exists_eq_succ_of_ne_zero hk
  refine nrPasses_invariant (P := fun z => z = 0xFC00#16 ∨ z = defaultNaN) (fun z hz => nrPass_of_huge hs he ?_) j _
    (nrPass_of_huge hs he hy)
  obtain rfl | rfl := hz
  · exact .inr (by decide)
  · exact .inl (by decide)

end

/-- Settles O17: the guess wraps, and no pass leads back to the finite numbers. -/
theorem reciprocalOfHugeInputsIsNotFinite : Obligations.ReciprocalOfHugeInputsIsNotFinite := by
  intro x k hk he
  have hfin : isFinite x = true := by rw [isFinite_iff]; omega
  have hpasses := nrPasses_of_huge (signOf_fabs x) ((expOf_fabs x).trans he) (k := k) (by omega) (recipGuess_of_huge he)
  rw [recipCore_of_value constRomValues k (isZero_eq_false_of_expOf_ne_zero (by omega))
    (isNaN_eq_false_of_isFinite hfin)]
  obtain hy | hy := hpasses
  · rw [hy]
    cases signOf x <;> decide
  · rw [hy]
    cases signOf x <;> decide

/-! The commands (R101, R102). -/

/-- A one-vector command on whole operands, lane by lane. -/
theorem mapLanes_lanes {s : State} {a b : Vec} (f : Vec → Half → Half) (h : s.operandsWhole a b) :
    ∃ yv nv, mapLanes s f = .next (s.writeOutputs yv nv) ∧
      ∀ i, lane yv i = f b (lane a i) ∧ lane nv i = 0x0000#16 :=
  ⟨_, _, mapLanes_whole f h.1 h.2, fun i => ⟨lane_ofLanes _ i, lane_broadcast _ i⟩⟩

/-- Settles O4: RECIPM is RECIP_CORE with three passes on each lane. -/
theorem recipmWritesThreePassReciprocals : Obligations.RecipmWritesThreePassReciprocals := by
  refine ⟨decode_encode .recipm, fun s a b h => ?_, by decide +kernel⟩
  rw [exec_recipm]
  exact mapLanes_lanes _ h

/-- Settles O5: RECIPH is RECIP_CORE with four passes on each lane. -/
theorem reciphWritesFourPassReciprocals : Obligations.ReciphWritesFourPassReciprocals := by
  refine ⟨decode_encode .reciph, fun s a b h => ?_, by decide +kernel⟩
  rw [exec_reciph]
  exact mapLanes_lanes _ h

end Sys2Proof.Machine

/-! SUPPORT. The polynomial evaluator (R120 to R124): ESTRIN as two cubics in x joined at x^4, what a NaN and what a zero
argument do to it, and its commands. -/

namespace Sys2Proof.Machine

/-! A finite nonzero pattern is the only one of its value, so RoundH keeps it (R5, R6). -/

theorem magUnits_lt (h : Half) : magUnits h < 1024 * 2 ^ expOf h := by
  have hman := manOf_lt h
  by_cases he : expOf h = 0
  · rw [magUnits, if_pos he, he]
    omega
  · obtain ⟨e, he'⟩ := Nat.exists_eq_succ_of_ne_zero he
    rw [magUnits_of_expOf_ne_zero he, he', Nat.succ_sub_one, pow_succ, mul_comm (2 ^ e), ← mul_assoc]
    exact Nat.mul_lt_mul_of_pos_right (by omega) (by positivity)

theorem magUnits_ge {h : Half} (he : expOf h ≠ 0) : 1024 * 2 ^ (expOf h - 1) ≤ magUnits h := by
  rw [magUnits_of_expOf_ne_zero he]
  exact Nat.mul_le_mul_right _ (by omega)

/-- The largest finite magnitude is 65504. -/
theorem magUnits_le_of_isFinite {h : Half} (hf : isFinite h = true) : magUnits h ≤ 65504 * unitDen := by
  have hman := manOf_lt h
  rw [isFinite_iff] at hf
  by_cases he : expOf h = 0
  · rw [magUnits, if_pos he, unitDen]
    omega
  · rw [magUnits_of_expOf_ne_zero he]
    calc (1024 + manOf h) * 2 ^ (expOf h - 1) ≤ 2047 * 2 ^ 29 :=
          Nat.mul_le_mul (by omega) (Nat.pow_le_pow_right two_pos (by omega))
      _ = 65504 * unitDen := rfl

/-- The binades do not overlap. -/
theorem magUnits_lt_of_expOf_lt {a b : Half} (h : expOf a < expOf b) : magUnits a < magUnits b :=
  calc magUnits a < 1024 * 2 ^ expOf a := magUnits_lt a
    _ ≤ 1024 * 2 ^ (expOf b - 1) := Nat.mul_le_mul_left _ (Nat.pow_le_pow_right two_pos (by omega))
    _ ≤ magUnits b := magUnits_ge (by omega)

theorem expOf_eq_of_magUnits_eq {a b : Half} (h : magUnits a = magUnits b) : expOf a = expOf b := by
  obtain hlt | heq | hgt := lt_trichotomy (expOf a) (expOf b)
  · exact absurd h (magUnits_lt_of_expOf_lt hlt).ne
  · exact heq
  · exact absurd h (magUnits_lt_of_expOf_lt hgt).ne'

theorem manOf_eq_of_magUnits_eq {a b : Half} (h : magUnits a = magUnits b) : manOf a = manOf b := by
  have he := expOf_eq_of_magUnits_eq h
  by_cases ha : expOf a = 0
  · rwa [magUnits, magUnits, if_pos ha, if_pos (he ▸ ha)] at h
  · rw [magUnits_of_expOf_ne_zero ha, magUnits_of_expOf_ne_zero (he ▸ ha), he] at h
    exact Nat.add_left_cancel (Nat.eq_of_mul_eq_mul_right (by positivity) h)

theorem natAbs_valueUnits (h : Half) : (valueUnits h).natAbs = magUnits h := by
  unfold valueUnits
  split <;> omega

/-- Only the zeros share a value. -/
theorem half_ext_value {a b : Half} (ha : isZero a = false) (h : valueUnits a = valueUnits b) : a = b := by
  have hmag : magUnits a = magUnits b := by rw [← natAbs_valueUnits, h, natAbs_valueUnits]
  have hb : isZero b = false := by
    rwa [← Bool.not_eq_true, ← valueUnits_eq_zero_iff, ← h, valueUnits_eq_zero_iff, Bool.not_eq_true]
  have hsign : signOf a = signOf b := by
    have hneg := valueUnits_neg_iff b
    rw [← h, valueUnits_neg_iff a] at hneg
    simpa [ha, hb] using hneg
  exact half_ext_fields hsign (expOf_eq_of_magUnits_eq hmag) (manOf_eq_of_magUnits_eq hmag)

/-- RoundH keeps the value of a finite nonzero pattern: no pattern is nearer to it than itself. -/
theorem roundH_valueUnits {c : Half} (hf : isFinite c = true) (h0 : isZero c = false) (zs : Bool) :
    roundH (valueUnits c * unitDen) (unitDen * unitDen) zs = c := by
  have hpos := unitDen_pos
  have hne : valueUnits c * unitDen ≠ 0 :=
    mul_ne_zero (by rw [Ne, valueUnits_eq_zero_iff, h0]; simp) (by exact_mod_cast hpos.ne')
  have hlt : (valueUnits c * unitDen).natAbs < 65520 * (unitDen * unitDen) := by
    have hle := magUnits_le_of_isFinite hf
    rw [Int.natAbs_mul, natAbs_valueUnits, Int.natAbs_natCast, ← mul_assoc]
    exact Nat.mul_lt_mul_of_pos_right (by omega) hpos
  have hself : Claims.distance (valueUnits c * unitDen) (unitDen * unitDen) c = 0 := by
    rw [Claims.distance, Int.natAbs_eq_zero]
    push_cast
    ring
  have hzero := (roundH_nearest zs hne (Nat.mul_pos hpos hpos) hlt c).1
  rw [hself, Nat.le_zero, Claims.distance, Int.natAbs_eq_zero, sub_eq_zero, mul_assoc] at hzero
  push_cast at hzero
  exact (half_ext_value h0 (mul_right_cancel₀ (by positivity) hzero)).symm

/-! FMUL and FMA at a zero factor (R8, R9). -/

theorem isZero_fmul_of_isZero {a b : Half} (ha : isZero a = true) (hb : isZero b = true) :
    isZero (fmul a b) = true := by
  have hfa := isFinite_of_isZero ha
  have hfb := isFinite_of_isZero hb
  have hzero : fmul a b = withSign (signOf a ^^ signOf b) 0 := by
    simp [fmul, ha, isNaN_eq_false_of_isFinite, isInf_eq_false_of_isFinite, hfa, hfb]
  rw [hzero]
  cases signOf a ^^ signOf b <;> decide

theorem fma_of_fmaExact_eq_zero {a b c : Half} (ha : isFinite a = true) (hb : isFinite b = true)
    (hc : isFinite c = true) (h : fmaExact a b c = 0) : fma a b c =
      if (isZero a || isZero b) && isZero c && (signOf a ^^ signOf b) && signOf c then 0x8000#16 else 0x0000#16 := by
  simp only [fma, h, isNaN_eq_false_of_isFinite, isInf_eq_false_of_isFinite, ha, hb, hc, Bool.or_self,
    Bool.false_and, Bool.and_false, Bool.false_eq_true, if_false, if_true]

section
variable {a z c : Half} (ha : isFinite a = true) (hz : isZero z = true) (hc : isFinite c = true)
include ha hz hc

theorem fma_of_zero_factor (hc0 : isZero c = false) : fma a z c = c := by
  have hexact : fmaExact a z c = valueUnits c * unitDen := by simp [fmaExact, (valueUnits_eq_zero_iff z).2 hz]
  have hne : fmaExact a z c ≠ 0 := by simp [hexact, valueUnits_eq_zero_iff, hc0, unitDen_pos.ne']
  rw [fma_of_isFinite ha (isFinite_of_isZero hz) hc hne, hexact, roundH_valueUnits hc hc0]

theorem isFinite_fma_of_zero_factor : isFinite (fma a z c) = true := by
  cases hc0 : isZero c
  · rwa [fma_of_zero_factor ha hz hc hc0]
  · have hexact : fmaExact a z c = 0 := by
      simp [fmaExact, (valueUnits_eq_zero_iff z).2 hz, (valueUnits_eq_zero_iff c).2 hc0]
    rw [fma_of_fmaExact_eq_zero ha (isFinite_of_isZero hz) hc hexact]
    split <;> decide

end

/-! ESTRIN (R120). -/

/-- One half of ESTRIN's dataflow: the cubic c0 + c1 x + c2 x^2 + c3 x^3, every node rounded. -/
def estrinHalf (x c0 c1 c2 c3 : Half) : Half := fma (fma c3 x c2) (fmul x x) (fma c1 x c0)

theorem estrin_eq_halves (x : Half) (c : Lane → Half) : estrin x c =
    fma (estrinHalf x (c 1) (c 5) (c 3) (c 7)) (fmul (fmul x x) (fmul x x)) (estrinHalf x (c 0) (c 4) (c 2) (c 6)) := rfl

theorem isNaN_fma_of_isNaN {a b c : Half} (h : isNaN a = true ∨ isNaN b = true ∨ isNaN c = true) :
    isNaN (fma a b c) = true := by
  rw [fma_of_isNaN h]
  decide

theorem isNaN_estrinHalf {x c0 c1 c2 c3 : Half} (h : isNaN x = true ∨ isNaN c0 = true ∨ isNaN c1 = true ∨
    isNaN c2 = true ∨ isNaN c3 = true) : isNaN (estrinHalf x c0 c1 c2 c3) = true := by
  have hnode : isNaN (fma c3 x c2) = true ∨ isNaN (fma c1 x c0) = true := by
    obtain hx | h0 | h1 | h2 | h3 := h
    · exact .inl (isNaN_fma_of_isNaN (.inr (.inl hx)))
    · exact .inr (isNaN_fma_of_isNaN (.inr (.inr h0)))
    · exact .inr (isNaN_fma_of_isNaN (.inl h1))
    · exact .inl (isNaN_fma_of_isNaN (.inr (.inr h2)))
    · exact .inl (isNaN_fma_of_isNaN (.inl h3))
  exact isNaN_fma_of_isNaN (hnode.imp_right .inr)

/-- Settles O19: a NaN passes through the half it enters, and through the last node. -/
theorem polynomialPropagatesNaN : Obligations.PolynomialPropagatesNaN := by
  intro x c h
  have hhalf : isNaN (estrinHalf x (c 1) (c 5) (c 3) (c 7)) = true ∨
      isNaN (estrinHalf x (c 0) (c 4) (c 2) (c 6)) = true := by
    obtain hx | ⟨k, hk⟩ := h
    · exact .inl (isNaN_estrinHalf (.inl hx))
    · have hhalves : ∀ k : Lane, (k = 1 ∨ k = 5 ∨ k = 3 ∨ k = 7) ∨ (k = 0 ∨ k = 4 ∨ k = 2 ∨ k = 6) := by decide
      obtain hodd | heven := hhalves k
      · exact .inl (isNaN_estrinHalf (.inr (by obtain rfl | rfl | rfl | rfl := hodd <;> simp [hk])))
      · exact .inr (isNaN_estrinHalf (.inr (by obtain rfl | rfl | rfl | rfl := heven <;> simp [hk])))
  rw [estrin_eq_halves]
  exact fma_of_isNaN (hhalf.imp_right .inr)

section
variable {x c0 c1 c2 c3 : Half} (hx : isZero x = true) (h0 : isFinite c0 = true) (h1 : isFinite c1 = true)
  (h2 : isFinite c2 = true) (h3 : isFinite c3 = true)
include hx h0 h1 h2 h3

theorem isFinite_estrinHalf_of_isZero : isFinite (estrinHalf x c0 c1 c2 c3) = true :=
  isFinite_fma_of_zero_factor (isFinite_fma_of_zero_factor h3 hx h2) (isZero_fmul_of_isZero hx hx)
    (isFinite_fma_of_zero_factor h1 hx h0)

theorem estrinHalf_of_isZero (hne : isZero c0 = false) : estrinHalf x c0 c1 c2 c3 = c0 := by
  rw [estrinHalf, fma_of_zero_factor h1 hx h0 hne]
  exact fma_of_zero_factor (isFinite_fma_of_zero_factor h3 hx h2) (isZero_fmul_of_isZero hx hx) h0 hne

end

/-- Settles O20: the powers of x are zeros, so each node on the way of c[0] keeps it. -/
theorem polynomialAtZeroIsItsConstantTerm : Obligations.PolynomialAtZeroIsItsConstantTerm := by
  intro x c hx hc h0
  have hx2 := isZero_fmul_of_isZero hx hx
  rw [estrin_eq_halves, estrinHalf_of_isZero hx (hc 0) (hc 4) (hc 2) (hc 6) h0]
  exact fma_of_zero_factor (isFinite_estrinHalf_of_isZero hx (hc 1) (hc 5) (hc 3) (hc 7))
    (isZero_fmul_of_isZero hx2 hx2) (hc 0) h0

/-- Settles O18: the two cubics joined at x^4, multiplied out. -/
theorem estrinIsThePowerSeries : Obligations.EstrinIsThePowerSeries := by
  intro x c
  unfold estrinWith
  ring

/-! The commands (R121). -/

/-- The evaluator on whole operands, lane by lane, with the coefficients of any source. -/
theorem evalPoly_lanes {s : State} {a b : Vec} (src : CoefSource) (h : s.operandsWhole a b) :
    ∃ yv nv, evalPoly s src = .next (s.writeOutputs yv nv) ∧
      ∀ i, lane yv i = estrin (lane a i) (coefficients s b src) ∧ lane nv i = 0x0000#16 :=
  mapLanes_lanes _ h

/-- Settles O6: each command is the evaluator with its own source. -/
theorem polyCommandsEvaluateTheirTables : Obligations.PolyCommandsEvaluateTheirTables :=
  ⟨⟨decode_encode .poly, decode_encode .polyE, decode_encode .polyL⟩,
    fun _ _ _ h => ⟨evalPoly_lanes .portB h, evalPoly_lanes .expTable h, evalPoly_lanes .logTable h⟩, by decide +kernel⟩

end Sys2Proof.Machine

/-! SUPPORT. The splitter (R140 to R143): SPLIT_CORE on every pattern, and its command. -/

namespace Sys2Proof.Machine

/-! SPLIT_CORE on every pattern (R142). -/

/-- The signed view of a pattern by its fields: a set sign bit counts as -32 binades (R3, R5). -/
theorem asS16_fields (x : Half) :
    asS16 x = (if signOf x then (expOf x : Int) - 32 else (expOf x : Int)) * 1024 + manOf x := by
  have hx := toNat_fields x
  have he := expOf_lt x
  have hm := manOf_lt x
  rw [asS16, BitVec.toInt_eq_toNat_cond]
  cases hs : signOf x <;> simp only [hs, if_true, if_false, Bool.false_eq_true] at hx ⊢ <;> split <;> omega

/-- Wrapping the subtrahend first changes no difference (R15). -/
theorem sub16_asU16 (a : Half) (v : Int) : sub16 a (asU16 v) = asU16 (asS16 a - v) := by
  simp [sub16_eq, asU16, asS16, Int.sub_eq_add_neg, BitVec.ofInt_add, BitVec.ofInt_neg, BitVec.sub_eq_add_neg]

theorem asU16_eq_onePlus {m : Nat} (hm : m < 1024) : asU16 (15360 + m) = onePlus m := by
  have hone := onePlus_toNat hm
  have hs : asS16 (onePlus m) = 15360 + m := by
    rw [asS16_of_toNat_lt (by omega), hone, Nat.cast_add, Nat.cast_ofNat]
  rw [← hs, asU16_asS16]

/-- The exponent of SPLIT_CORE (R142): the shift leaves E, or E - 32 below a set sign bit. -/
theorem asS16_splitCore_n (x : Half) :
    asS16 (splitCore x).n = if signOf x then (expOf x : Int) - 47 else (expOf x : Int) - 15 := by
  have hx := asS16_fields x
  have he := expOf_lt x
  have hm := manOf_lt x
  have hbias : asS16 15#16 = 15 := by decide
  have hshift : asS16 (asr16 x 10) = if signOf x then (expOf x : Int) - 32 else (expOf x : Int) := by
    rw [asS16_asr16]
    omega
  change asS16 (sub16 (asr16 x 10) 15#16) = _
  rw [sub16, hshift, hbias, asS16_asU16_of_range] <;> split <;> omega

/-- The mantissa of SPLIT_CORE (R142): taking n binades off any pattern leaves 1 + M / 1024. -/
theorem splitCore_r (x : Half) : (splitCore x).r = onePlus (manOf x) := by
  have hn := asS16_splitCore_n x
  have hdiff : asS16 x - asS16 (splitCore x).n * 2 ^ 10 = 15360 + manOf x := by
    rw [asS16_fields, hn]
    split <;> omega
  calc (splitCore x).r = sub16 x (shl16 (splitCore x).n 10) := rfl
    _ = asU16 (asS16 x - asS16 (splitCore x).n * 2 ^ 10) := sub16_asU16 _ _
    _ = onePlus (manOf x) := by rw [hdiff, asU16_eq_onePlus (manOf_lt x)]

/-! Where x = r * 2^n (R142, R143). -/

theorem isPositiveNormal_iff (x : Half) :
    isPositiveNormal x = true ↔ signOf x = false ∧ expOf x ≠ 0 ∧ expOf x ≠ 31 := by
  unfold isPositiveNormal classOf
  split_ifs <;> simp_all

theorem valueUnits_splitCore_r (x : Half) : valueUnits (splitCore x).r = (1024 + manOf x) * 2 ^ 14 := by
  obtain ⟨hs, he, hm⟩ := onePlus_fields (manOf_lt x)
  rw [splitCore_r, (hasUnits_of_binade_one hs he).valueUnits_eq, hm]
  push_cast
  rfl

/-- On a positive normal SPLIT_CORE is a factorisation. -/
theorem valueUnits_eq_splitCore {x : Half} (hs : signOf x = false) (he : expOf x ≠ 0) :
    valueUnits x * 2 ^ 15 = valueUnits (splitCore x).r * 2 ^ (asS16 (splitCore x).n + 15).toNat := by
  obtain ⟨e, he'⟩ := Nat.exists_eq_succ_of_ne_zero he
  have hexp : (asS16 (splitCore x).n + 15).toNat = e + 1 := by
    rw [asS16_splitCore_n, hs, he']
    simp
  rw [hexp, valueUnits_splitCore_r, valueUnits_of_signOf_false hs, magUnits_of_expOf_ne_zero he, he',
    Nat.succ_sub_one]
  push_cast
  ring

/-- Below zero the sign is lost: r is positive. -/
theorem valueUnits_ne_splitCore_of_signOf {x : Half} (k : Nat) (hs : signOf x = true) :
    valueUnits x * 2 ^ 47 ≠ valueUnits (splitCore x).r * 2 ^ k := by
  have hx : valueUnits x * 2 ^ 47 ≤ 0 := by
    rw [valueUnits_of_signOf_true hs]
    omega
  have hr : 0 < valueUnits (splitCore x).r * 2 ^ k := by
    rw [valueUnits_splitCore_r]
    positivity
  omega

/-- At zero and the subnormals r has a leading one that x has not. -/
theorem valueUnits_ne_splitCore_of_expOf_zero {x : Half} (hs : signOf x = false) (he : expOf x = 0) :
    valueUnits x * 2 ^ 47 ≠ valueUnits (splitCore x).r * 2 ^ (asS16 (splitCore x).n + 47).toNat := by
  have hm := manOf_lt x
  have hexp : (asS16 (splitCore x).n + 47).toNat = 32 := by
    rw [asS16_splitCore_n, hs, he]
    rfl
  rw [hexp, valueUnits_splitCore_r, valueUnits_of_signOf_false hs, magUnits, if_pos he]
  omega

/-- Settles O22: n and r by the fields of x, and the factorisation by the sign and the exponent field. -/
theorem splitCoreByInputClass : Obligations.SplitCoreByInputClass := by
  intro x
  have hlt := expOf_lt x
  have hn := asS16_splitCore_n x
  refine ⟨hn, splitCore_r x, fun hx => ?_, fun hx hfin => ?_⟩
  · obtain ⟨hs, he, he31⟩ := (isPositiveNormal_iff x).1 hx
    rw [hs, if_neg (by simp)] at hn
    exact ⟨by omega, by omega, valueUnits_eq_splitCore hs he⟩
  · rw [isFinite_iff] at hfin
    cases hs : signOf x with
    | true => exact valueUnits_ne_splitCore_of_signOf _ hs
    | false =>
      have he : expOf x = 0 := by
        by_contra he
        simp [(isPositiveNormal_iff x).2 ⟨hs, he, hfin.ne⟩] at hx
      exact valueUnits_ne_splitCore_of_expOf_zero hs he

/-! The command (R141, R143). -/

theorem splitLane_of_inside {x : Half} (src d : Nat) (i : Lane) (hx : splitInDomain x = true) :
    splitLane src d i x = splitCore x := if_pos hx

/-- SPLIT on whole operands, lane by lane. -/
theorem execSplit_lanes {s : State} {a b : Vec} (h : s.operandsWhole a b) :
    ∃ yv nv, exec .split s = .next ((s.writeOutputs yv nv).advanceDraws 16) ∧
      ∀ i, lane yv i = (splitLane s.drawSource s.drawCount i (lane a i)).r ∧
        lane nv i = (splitLane s.drawSource s.drawCount i (lane a i)).n :=
  ⟨_, _, withOperands_whole _ h.1 h.2, fun i => ⟨lane_ofLanes _ i, lane_ofLanes _ i⟩⟩

/-- Settles O7: a lane of the source domain shows SPLIT_CORE, and 3.0 is 1.5 * 2^1. -/
theorem splitWritesMantissaAndExponent : Obligations.SplitWritesMantissaAndExponent := by
  refine ⟨decode_encode .split, fun s a b h => ?_, by decide⟩
  obtain ⟨yv, nv, he, hlanes⟩ := execSplit_lanes h
  refine ⟨yv, nv, 16, he, fun i hi => ?_⟩
  rw [← splitLane_of_inside s.drawSource s.drawCount i hi]
  exact hlanes i

end Sys2Proof.Machine

/-! SUPPORT. The logarithm kernel (R160 to R166): LOG_CORE on zeros and off them, its exponent, and its command. -/

namespace Sys2Proof.Machine

/-! The exponent (R160). -/

/-- Settles O25: the exponent is the field less its bias, far inside the integers the conversion keeps. -/
theorem logExponentConvertsExactly : Obligations.LogExponentConvertsExactly := by
  intro x
  have hlt := expOf_lt x
  have hrange : -47 ≤ asS16 (splitCore x).n ∧ asS16 (splitCore x).n ≤ 16 := by
    rw [asS16_splitCore_n]
    split <;> omega
  obtain ⟨hlo, hhi⟩ := hrange
  exact ⟨hlo, hhi, (roundH_int_exact (by omega) (by omega)).2⟩

/-! LOG_CORE on the two parts of its domain (R160, R162, R163). -/

theorem logCore_of_isZero (rom : ConstRom) (coef : Lane → Half) {x : Half} (hx : isZero x = true) :
    logCore rom coef x = rom.ninf := by
  simp [logCore, select, eqz_eq_isZero, hx]

theorem logCore_of_not_isZero (rom : ConstRom) (coef : Lane → Half) {x : Half} (hx : isZero x = false) :
    logCore rom coef x = logReconstruct rom (splitCore x).n (estrin (splitCore x).r coef) := by
  simp [logCore, select, eqz_eq_isZero, hx]

theorem isZero_eq_false_of_isPositiveNormal {x : Half} (hx : isPositiveNormal x = true) : isZero x = false :=
  isZero_eq_false_of_expOf_ne_zero ((isPositiveNormal_iff x).1 hx).2.1

theorem logInDomain_iff (x : Half) : logInDomain x = true ↔ isPositiveNormal x = true ∨ isZero x = true :=
  Bool.or_eq_true_iff

/-! The command (R161, R163). -/

theorem logLane_of_inside {x : Half} (rom : ConstRom) (coef : Lane → Half) (src d : Nat) (i : Lane)
    (hx : logInDomain x = true) : logLane rom coef src d i x = logCore rom coef x := if_pos hx

/-- LOG on whole operands, lane by lane. -/
theorem execLog_lanes {s : State} {a b : Vec} (h : s.operandsWhole a b) :
    ∃ yv nv, exec .log s = .next ((s.writeOutputs yv nv).advanceDraws 8) ∧ ∀ i, lane nv i = 0x0000#16 ∧
      (logInDomain (lane a i) = true → lane yv i = logCore s.constRom (fun k => s.logCoef.get k) (lane a i)) :=
  ⟨_, _, withOperands_whole _ h.1 h.2, fun i =>
    ⟨lane_broadcast _ i, fun hi => (lane_ofLanes _ i).trans (logLane_of_inside _ _ _ _ i hi)⟩⟩

/-- Settles O8: a lane of the source domain shows LOG_CORE with the state's own table. -/
theorem logWritesLogarithms : Obligations.LogWritesLogarithms := by
  refine ⟨decode_encode .log, fun s a b h => ?_, by decide +kernel⟩
  obtain ⟨yv, nv, he, hlanes⟩ := execLog_lanes h
  exact ⟨yv, nv, 8, he, hlanes⟩

/-- Settles O23: both zeros are overridden by NINF, and no positive normal is a zero. -/
theorem logOfZeroIsMinusInfinity : Obligations.LogOfZeroIsMinusInfinity := by
  intro s a b hrom h
  obtain ⟨yv, nv, he, hlanes⟩ := execLog_lanes h
  refine ⟨_, yv, he, rfl, fun i => ⟨fun hz => ?_, fun hp => ?_⟩⟩
  · have hdom := (logInDomain_iff (lane a i)).2 (.inr hz)
    rw [(hlanes i).2 hdom, logCore_of_isZero _ _ hz, hrom]
    rfl
  · have hdom := (logInDomain_iff (lane a i)).2 (.inl hp)
    rw [(hlanes i).2 hdom, logCore_of_not_isZero _ _ (isZero_eq_false_of_isPositiveNormal hp)]

/-! LOG as a composition (R164). -/

/-- POLY.L on whole operands, lane by lane. -/
theorem execPolyL_lanes {s : State} {a b : Vec} (h : s.operandsWhole a b) :
    ∃ t yv, exec .polyL s = .next t ∧ t.y = some yv ∧
      ∀ i, lane yv i = estrin (lane a i) fun k => s.logCoef.get k := by
  obtain ⟨yv, nv, he, hlanes⟩ := evalPoly_lanes .logTable h
  exact ⟨_, yv, he, rfl, fun i => (hlanes i).1⟩

/-- Settles O24: off the zeros SPLIT's N and POLY.L's Y are the two arguments of LOG's reconstruction. -/
theorem logIsSplitThenPolyL : Obligations.LogIsSplitThenPolyL := by
  intro s a b hrom h
  obtain ⟨rv, nv, hsplit, hrn⟩ := execSplit_lanes h
  obtain ⟨s2, pv, hpoly, hy, hp⟩ := execPolyL_lanes (a := rv) (b := b)
    (s := { (s.writeOutputs rv nv).advanceDraws 16 with ports := { s.ports with a := some rv } }) ⟨rfl, h.2⟩
  obtain ⟨yv, _, hlog, hl⟩ := execLog_lanes h
  refine ⟨_, s2, _, rv, nv, pv, yv, hsplit, rfl, rfl, hpoly, hy, hlog, rfl, fun i hi => ?_⟩
  rw [(hl i).2 hi, hrom]
  obtain hpos | hzero := (logInDomain_iff (lane a i)).1 hi
  · have hnz := isZero_eq_false_of_isPositiveNormal hpos
    obtain ⟨hr, hn⟩ := hrn i
    rw [splitLane_of_inside _ _ _ hpos] at hr hn
    rw [logCore_of_not_isZero _ _ hnz, hnz, hp i, hr, hn]
    rfl
  · rw [logCore_of_isZero _ _ hzero, if_pos hzero]
    rfl

end Sys2Proof.Machine

/-! SUPPORT. The exponential kernel (R180 to R186): rounding is monotone, so the guard and the tiny inputs are decided at
their boundary inputs; the reconstruction by fields; and the command. -/

namespace Sys2Proof.Machine

/-! Rounding is monotone (R6, R13). -/

/-- Integers nearest to two quotients stand in the quotients' order. -/
theorem le_of_quotientGap_le {num num' den k k' : Nat} (hd : 0 < den) (hlt : num < num')
    (h : quotientGap num den k ≤ quotientGap num den k') (h' : quotientGap num' den k' ≤ quotientGap num' den k) :
    k ≤ k' := by
  by_contra hc
  have hmul : k' * den < k * den := Nat.mul_lt_mul_of_pos_right (by omega) hd
  unfold quotientGap at h h'
  omega

theorem roundNearestEven_mono {num num' den : Nat} (hd : 0 < den) (h : num ≤ num') :
    roundNearestEven num den ≤ roundNearestEven num' den := by
  obtain rfl | hlt := h.eq_or_lt
  · rfl
  · exact le_of_quotientGap_le hd hlt (roundNearestEven_nearest hd _).1 (roundNearestEven_nearest hd _).1

theorem roundUnits_mono {num num' den : Nat} (hd : 0 < den) (h : num ≤ num') (hlt' : num' < 65520 * den) :
    roundUnits num den ≤ roundUnits num' den := by
  obtain rfl | hlt := h.eq_or_lt
  · rfl
  · have hnum : num < 65520 * den := by omega
    have hnear := (roundMagnitude_nearest (s := false) hd hnum rfl (withSign false (roundMagnitude num' den))).1
    have hnear' := (roundMagnitude_nearest (s := false) hd hlt' rfl (withSign false (roundMagnitude num den))).1
    rw [magDistance, magDistance, magUnits_roundMagnitude _ hd hnum, magUnits_roundMagnitude _ hd hlt'] at hnear hnear'
    exact le_of_quotientGap_le hd (Nat.mul_lt_mul_of_pos_right hlt unitDen_pos) hnear hnear'

/-! The product of finite patterns by its fields (R8). -/

/-- A zero product needs no case of its own: RoundH gives it the sign of R8. -/
theorem fmul_eq_roundH {a b : Half} (ha : isFinite a = true) (hb : isFinite b = true) :
    fmul a b = roundH (valueUnits a * valueUnits b) (unitDen * unitDen) (signOf a ^^ signOf b) := by
  simp only [fmul, isNaN_eq_false_of_isFinite, isInf_eq_false_of_isFinite, ha, hb, Bool.or_self, Bool.false_and,
    Bool.and_false, Bool.false_eq_true, if_false, ite_eq_right_iff, Bool.or_eq_true]
  intro hz
  rw [roundH, if_pos (by simpa [valueUnits_eq_zero_iff] using hz)]

theorem natAbs_valueUnits_mul (a b : Half) : (valueUnits a * valueUnits b).natAbs = magUnits a * magUnits b := by
  rw [Int.natAbs_mul, natAbs_valueUnits, natAbs_valueUnits]

theorem signOf_eq_valueUnits_neg {h : Half} (h0 : valueUnits h ≠ 0) : signOf h = decide (valueUnits h < 0) := by
  rw [Bool.eq_iff_iff, decide_eq_true_iff, valueUnits_neg_iff, ← Bool.not_eq_true (isZero h), ← valueUnits_eq_zero_iff]
  exact (and_iff_left h0).symm

/-- A nonzero product is negative where the signs differ. -/
theorem decide_valueUnits_mul_neg {a b : Half} (h : valueUnits a * valueUnits b ≠ 0) :
    decide (valueUnits a * valueUnits b < 0) = (signOf a ^^ signOf b) := by
  obtain ⟨ha, hb⟩ := mul_ne_zero_iff.1 h
  rw [signOf_eq_valueUnits_neg ha, signOf_eq_valueUnits_neg hb, Bool.eq_iff_iff, decide_eq_true_iff, mul_neg_iff]
  simp only [bne_iff_ne, ne_eq, decide_eq_decide]
  omega

section
variable {a b : Half} (ha : isFinite a = true) (hb : isFinite b = true)
include ha hb

/-- Below the overflow threshold a product is finite, with the sign of R8 and the rounded magnitude. -/
theorem fmul_fields (hlt : magUnits a * magUnits b < 65520 * (unitDen * unitDen)) :
    signOf (fmul a b) = (signOf a ^^ signOf b) ∧ isFinite (fmul a b) = true ∧
      magUnits (fmul a b) = roundUnits (magUnits a * magUnits b) (unitDen * unitDen) := by
  have hd : 0 < unitDen * unitDen := Nat.mul_pos unitDen_pos unitDen_pos
  rw [fmul_eq_roundH ha hb]
  rw [← natAbs_valueUnits_mul] at hlt ⊢
  by_cases hn : valueUnits a * valueUnits b = 0
  · rw [hn]
    cases signOf a ^^ signOf b <;> decide +kernel
  · refine ⟨?_, isFinite_roundH _ hn hd hlt, ?_⟩
    · rw [signOf_roundH _ hn hd hlt, decide_valueUnits_mul_neg hn]
    · rw [roundH_of_ne_zero hn]
      exact magUnits_roundMagnitude _ hd hlt

/-- From the overflow threshold on a product is the infinity of its sign. -/
theorem fmul_of_ge (hge : 65520 * (unitDen * unitDen) ≤ magUnits a * magUnits b) :
    fmul a b = withSign (signOf a ^^ signOf b) 0x7C00 := by
  rw [← natAbs_valueUnits_mul] at hge
  have hn : valueUnits a * valueUnits b ≠ 0 := by
    intro h
    rw [h] at hge
    exact absurd hge (by decide)
  rw [fmul_eq_roundH ha hb, roundH_of_ne_zero hn, decide_valueUnits_mul_neg hn, roundMagnitude_of_ge hge]

end

theorem fmul_of_isInf_left {a b : Half} (ha : isInf a = true) (hb : isFinite b = true) (hb0 : isZero b = false) :
    fmul a b = withSign (signOf a ^^ signOf b) 0x7C00 := by
  simp [fmul, ha, hb0, isNaN_eq_false_of_isInf ha, isZero_eq_false_of_isInf ha, isNaN_eq_false_of_isFinite hb]

/-! The quotient m (R182). -/

/-- The magnitude of m on an argument of `u` units: the product with 1 / ln2 rounded, then rounded to an integer. -/
def quotientMagnitude (u : Nat) : Nat :=
  roundNearestEven (roundUnits (u * magUnits constRomValues.invln2) (unitDen * unitDen)) unitDen

/-- The product of an argument of `u` units with 1 / ln2 stays below the overflow threshold (R6, R182). -/
def QuotientInRange (u : Nat) : Prop := u * magUnits constRomValues.invln2 < 65520 * (unitDen * unitDen)

theorem isFinite_invln2 : isFinite constRomValues.invln2 = true := by decide

theorem quotientMagnitude_mono {u u' : Nat} (h : u ≤ u') (hlt : QuotientInRange u') :
    quotientMagnitude u ≤ quotientMagnitude u' :=
  roundNearestEven_mono unitDen_pos
    (roundUnits_mono (Nat.mul_pos unitDen_pos unitDen_pos) (Nat.mul_le_mul_right _ h) hlt)

theorem expQuotient_of_isNaN {x : Half} (hx : isNaN x = true) : expQuotient constRomValues x = 0x0000#16 := by
  rw [expQuotient, fmul_of_isNaN (.inl hx)]
  decide

theorem expQuotient_of_inRange {x : Half} (hx : isFinite x = true) (hlt : QuotientInRange (magUnits x)) :
    expQuotient constRomValues x = asU16 (ssat16
      (if signOf x then -(quotientMagnitude (magUnits x) : Int) else quotientMagnitude (magUnits x))) := by
  obtain ⟨hs, hf, hm⟩ := fmul_fields hx isFinite_invln2 hlt
  have hpos : signOf constRomValues.invln2 = false := by decide
  rw [expQuotient, cvtF16ToS16_of_isFinite hf, nearestInt, hs, hm, hpos, Bool.xor_false]
  rfl

/-- An infinite argument, or one whose product with 1 / ln2 overflows, gives the extreme integer of its sign. -/
theorem expQuotient_of_not_inRange {x : Half}
    (hx : isInf x = true ∨ (isFinite x = true ∧ ¬QuotientInRange (magUnits x))) :
    expQuotient constRomValues x = if signOf x then asU16 (-32768) else asU16 32767 := by
  have ht : fmul x constRomValues.invln2 = withSign (signOf x ^^ signOf constRomValues.invln2) 0x7C00 := by
    obtain hi | ⟨hf, hge⟩ := hx
    · exact fmul_of_isInf_left hi isFinite_invln2 (by decide)
    · exact fmul_of_ge hf isFinite_invln2 (not_lt.1 hge)
  rw [expQuotient, ht]
  cases signOf x <;> decide

/-! The underflow guard (R184). -/

theorem belowGuard_asU16_ssat16 (v : Int) : belowGuard (asU16 (ssat16 v)) = true ↔ v < -14 := by
  rw [belowGuard, decide_eq_true_iff, asS16_asU16_ssat16, ssat16]
  omega

/-- 10.0625 (0x4908) is the least magnitude whose quotient is 15: at its neighbour 0x4907 it is still 14. -/
theorem fifteen_le_quotientMagnitude_iff {x : Half} (hlt : QuotientInRange (magUnits x)) :
    15 ≤ quotientMagnitude (magUnits x) ↔ 1288 * 2 ^ 17 ≤ magUnits x := by
  have hbelow : quotientMagnitude (1287 * 2 ^ 17) = 14 := by decide +kernel
  have habove : quotientMagnitude (1288 * 2 ^ 17) = 15 := by decide +kernel
  constructor
  · intro h
    by_contra hc
    have hle : magUnits x ≤ 1287 * 2 ^ 17 := by
      obtain ⟨n, hn⟩ | ⟨-, hn⟩ := magUnits_multiple_or_lt x 17 <;> omega
    have hmono := quotientMagnitude_mono hle (by unfold QuotientInRange; decide)
    omega
  · intro h
    exact habove ▸ quotientMagnitude_mono h hlt

theorem belowGuard_expQuotient_of_not_inRange {x : Half}
    (hx : isInf x = true ∨ (isFinite x = true ∧ ¬QuotientInRange (magUnits x))) :
    belowGuard (expQuotient constRomValues x) = signOf x := by
  rw [expQuotient_of_not_inRange hx]
  cases signOf x <;> decide

/-- The guard by sign and magnitude on a finite argument. -/
theorem belowGuard_expQuotient_of_isFinite {x : Half} (hx : isFinite x = true) :
    belowGuard (expQuotient constRomValues x) = true ↔ signOf x = true ∧ 1288 * 2 ^ 17 ≤ magUnits x := by
  by_cases hlt : QuotientInRange (magUnits x)
  · rw [expQuotient_of_inRange hx hlt, belowGuard_asU16_ssat16, ← fifteen_le_quotientMagnitude_iff hlt]
    cases signOf x
    · simp only [Bool.false_eq_true, if_false, false_and, iff_false]
      omega
    · simp only [if_true, true_and]
      omega
  · have hmag : 1288 * 2 ^ 17 ≤ magUnits x := by
      have hinv : magUnits constRomValues.invln2 = 24199168 := by decide
      rw [QuotientInRange, hinv, unitDen] at hlt
      omega
    rw [belowGuard_expQuotient_of_not_inRange (.inr ⟨hx, hlt⟩)]
    exact (and_iff_left hmag).symm

/-- -10.0625 and less, as a value: the magnitude is at least 0x4908's. -/
theorem valueUnits_le_guard_iff {x : Half} (hs : signOf x = true) :
    valueUnits x * 10000 ≤ -100625 * 2 ^ 24 ↔ 1288 * 2 ^ 17 ≤ magUnits x := by
  rw [valueUnits_of_signOf_true hs]
  omega

/-- R184's set: the guard applies for -inf and for finite x at most -10.0625. -/
theorem belowGuard_expQuotient_iff (x : Half) : belowGuard (expQuotient constRomValues x) = true ↔
    signOf x = true ∧ (isInf x = true ∨ (isFinite x = true ∧ valueUnits x * 10000 ≤ -100625 * 2 ^ 24)) := by
  obtain hf | hi | hn := class_trichotomy x
  · rw [belowGuard_expQuotient_of_isFinite hf, isInf_eq_false_of_isFinite hf, hf]
    refine and_congr_right fun hs => ?_
    rw [← valueUnits_le_guard_iff hs]
    simp
  · rw [belowGuard_expQuotient_of_not_inRange (.inl hi)]
    simp [hi]
  · have hzero : belowGuard 0x0000#16 = false := by decide
    rw [expQuotient_of_isNaN hn, hzero]
    refine iff_of_false (by simp) ?_
    rintro ⟨-, hi | ⟨hf, -⟩⟩
    · simp [isNaN_eq_false_of_isInf hi] at hn
    · simp [isNaN_eq_false_of_isFinite hf] at hn

/-! EXP_CORE on the two sides of the guard (R180, R184), and its command (R181). -/

theorem expCore_of_belowGuard {rom : ConstRom} (coef : Lane → Half) {x : Half}
    (h : belowGuard (expQuotient rom x) = true) : expCore rom coef x = rom.pzero := by
  simp [expCore, select, h]

theorem expCore_of_not_belowGuard {rom : ConstRom} (coef : Lane → Half) {x : Half}
    (h : belowGuard (expQuotient rom x) = false) : expCore rom coef x =
      expRebuild (estrin (expReduced rom x (expQuotient rom x)) coef) (expQuotient rom x) := by
  simp [expCore, select, h]

/-- EXP on whole operands, lane by lane. -/
theorem execExp_lanes {s : State} {a b : Vec} (h : s.operandsWhole a b) :
    ∃ yv nv, exec .exp s = .next (s.writeOutputs yv nv) ∧
      ∀ i, lane yv i = expCore s.constRom (fun k => s.expCoef.get k) (lane a i) ∧ lane nv i = 0x0000#16 := by
  rw [exec_exp]
  exact mapLanes_lanes _ h

/-- Settles O9: EXP is EXP_CORE on each lane with the state's own table. -/
theorem expWritesExponentials : Obligations.ExpWritesExponentials :=
  ⟨decode_encode .exp, fun _ _ _ h => execExp_lanes h, by decide +kernel⟩

/-- Settles O26: the guard's set by monotone rounding from its boundary, and EXP_CORE on either side of it. -/
theorem expGuardAppliesExactlyBelow : Obligations.ExpGuardAppliesExactlyBelow := by
  refine ⟨belowGuard_expQuotient_iff, fun s a b hrom h => ?_, by decide +kernel, by decide +kernel, by decide +kernel⟩
  obtain ⟨yv, nv, he, hlanes⟩ := execExp_lanes h
  refine ⟨_, yv, he, rfl, fun i => ?_⟩
  obtain ⟨hy, -⟩ := hlanes i
  rw [hrom] at hy
  rw [hy]
  exact ⟨expCore_of_belowGuard _, expCore_of_not_belowGuard _⟩

/-! The reconstruction (R183). -/

/-- The sign bit is the sign of the signed view (R3). -/
theorem signOf_eq_asS16_neg (h : Half) : signOf h = decide (asS16 h < 0) :=
  (BitVec.msb_eq_getLsbD_last h).symm.trans BitVec.msb_eq_toInt

section
variable {p m : Half} (hplo : 1 ≤ expOf p) (hphi : expOf p ≤ 30) (hlo : 1 ≤ (expOf p : Int) + asS16 m)
  (hhi : (expOf p : Int) + asS16 m ≤ 30)
include hplo hphi hlo hhi

/-- Neither step of the reconstruction saturates while the exponent field stays in 1 to 30. -/
theorem asS16_expRebuild : asS16 (expRebuild p m) = asS16 p + asS16 m * 1024 := by
  have hp := asS16_fields p
  have hman := manOf_lt p
  have hshift : asS16 (qshl16 m 10) = asS16 m * 1024 := by
    rw [qshl16, asS16_asU16_ssat16, ssat16]
    omega
  rw [expRebuild, qadd16, asS16_asU16_ssat16, hshift, ssat16]
  split at hp <;> omega

theorem signOf_expRebuild : signOf (expRebuild p m) = signOf p := by
  have hman := manOf_lt p
  rw [signOf_eq_asS16_neg, signOf_eq_asS16_neg p, decide_eq_decide, asS16_expRebuild hplo hphi hlo hhi, asS16_fields p]
  split <;> omega

theorem expRebuild_fields : (expOf (expRebuild p m) : Int) = expOf p + asS16 m ∧
    manOf (expRebuild p m) = manOf p := by
  have hsum := asS16_expRebuild hplo hphi hlo hhi
  have hman := manOf_lt p
  have hman' := manOf_lt (expRebuild p m)
  rw [asS16_fields, asS16_fields p, signOf_expRebuild hplo hphi hlo hhi] at hsum
  split at hsum <;> omega

theorem magUnits_expRebuild :
    magUnits (expRebuild p m) * 2 ^ 30 = magUnits p * 2 ^ (asS16 m + 30).toNat := by
  obtain ⟨he, hm⟩ := expRebuild_fields hplo hphi hlo hhi
  have hpow : 2 ^ (expOf (expRebuild p m) - 1) * 2 ^ 30 = 2 ^ (expOf p - 1) * 2 ^ (asS16 m + 30).toNat := by
    rw [← pow_add, ← pow_add]
    congr 1
    omega
  rw [magUnits_of_expOf_ne_zero (by omega), magUnits_of_expOf_ne_zero (by omega), hm, mul_assoc, hpow, mul_assoc]

end

/-- Settles O27: only the exponent field moves, by m, so the magnitude is multiplied by 2^m. -/
theorem expRebuildMultipliesByAPowerOfTwo : Obligations.ExpRebuildMultipliesByAPowerOfTwo := by
  intro p m hplo hphi hlo hhi
  have hs := signOf_expRebuild hplo hphi hlo hhi
  have hmag : (magUnits (expRebuild p m) : Int) * 2 ^ 30 = magUnits p * 2 ^ (asS16 m + 30).toNat := by
    exact_mod_cast magUnits_expRebuild hplo hphi hlo hhi
  obtain ⟨he, hm⟩ := expRebuild_fields hplo hphi hlo hhi
  refine ⟨hs, he, hm, ?_⟩
  rw [valueUnits, valueUnits, hs]
  split <;> simp only [neg_mul, hmag]

/-! NaNs and tiny arguments (R185). -/

theorem expCore_of_isNaN (coef : Lane → Half) {x : Half} (hx : isNaN x = true) :
    expCore constRomValues coef x = 0x7E00#16 := by
  have hm := expQuotient_of_isNaN hx
  have hval : isNaN (expReduced constRomValues x 0x0000#16) = true := isNaN_fma_of_isNaN (.inr (.inr hx))
  rw [expCore_of_not_belowGuard _ (by rw [hm]; decide), hm, polynomialPropagatesNaN _ _ (.inl hval)]
  decide

section
variable {x : Half} (hx : expOf x = 0)
include hx

theorem isFinite_of_expOf_zero : isFinite x = true := by
  rw [isFinite_iff]
  omega

theorem magUnits_lt_of_expOf_zero : magUnits x < 1024 := by
  simpa [hx] using magUnits_lt x

/-- A zero or subnormal is too small for a quotient (R185). -/
theorem expQuotient_of_expOf_zero : expQuotient constRomValues x = 0x0000#16 := by
  have hle : magUnits x ≤ 1023 := Nat.le_of_lt_succ (magUnits_lt_of_expOf_zero hx)
  have hrange : QuotientInRange 1023 := by unfold QuotientInRange; decide
  have hzero : quotientMagnitude (magUnits x) = 0 :=
    Nat.le_zero.1 ((quotientMagnitude_mono hle hrange).trans_eq (by decide +kernel))
  rw [expQuotient_of_inRange (isFinite_of_expOf_zero hx) (lt_of_le_of_lt (Nat.mul_le_mul_right _ hle) hrange), hzero]
  split <;> decide

/-- The square of a zero or subnormal rounds to zero. -/
theorem isZero_fmul_self_of_expOf_zero : isZero (fmul x x) = true := by
  have hle : magUnits x * magUnits x ≤ 1023 * 1023 :=
    have h : magUnits x ≤ 1023 := Nat.le_of_lt_succ (magUnits_lt_of_expOf_zero hx)
    Nat.mul_le_mul h h
  have hfin := isFinite_of_expOf_zero hx
  have hrange : 1023 * 1023 < 65520 * (unitDen * unitDen) := by decide
  obtain ⟨-, -, hmag⟩ := fmul_fields hfin hfin (hle.trans_lt hrange)
  rw [← magUnits_eq_zero_iff, hmag, ← Nat.le_zero]
  exact (roundUnits_mono (Nat.mul_pos unitDen_pos unitDen_pos) hle hrange).trans_eq (by decide +kernel)

end

/-- The two factors of a multiply-add play the same part (R9). -/
theorem fma_comm (a b c : Half) : fma a b c = fma b a c := by
  unfold fma fmaExact
  rw [Bool.or_comm (isNaN a), Bool.or_comm (isInf a && isZero b), Bool.and_comm (isInf a), Bool.and_comm (isZero a),
    Bool.or_comm (isInf a), Bool.or_comm (isZero a), Bool.xor_comm (signOf a), mul_comm (valueUnits a)]

/-- With m = 0 the reduced argument is x again, or a zero for a zero x (R180). -/
theorem expOf_expReduced_of_expOf_zero {x : Half} (hx : expOf x = 0) :
    expOf (expReduced constRomValues x 0x0000#16) = 0 := by
  have hzero : isZero (fneg (cvtS16ToF16 0x0000#16)) = true := by decide
  have hln2 : isFinite constRomValues.ln2 = true := by decide
  have hfin := isFinite_of_expOf_zero hx
  rw [expReduced, fma_comm]
  cases hx0 : isZero x
  · rwa [fma_of_zero_factor hln2 hzero hfin hx0]
  · have hexact : fmaExact constRomValues.ln2 (fneg (cvtS16ToF16 0x0000#16)) x = 0 := by
      simp [fmaExact, (valueUnits_eq_zero_iff _).2 hzero, (valueUnits_eq_zero_iff x).2 hx0]
    rw [fma_of_fmaExact_eq_zero hln2 (isFinite_of_isZero hzero) hfin hexact]
    split <;> decide

/-- A number within 1023 units of 1 rounds to 1: at both ends of the interval RoundH gives 1. -/
theorem roundH_of_near_one {n : Nat} (hlo : (unitDen - 1023) * unitDen ≤ n) (hhi : n ≤ (unitDen + 1023) * unitDen) :
    roundH n (unitDen * unitDen) false = 0x3C00#16 := by
  have hd : 0 < unitDen * unitDen := Nat.mul_pos unitDen_pos unitDen_pos
  have hrange : (unitDen + 1023) * unitDen < 65520 * (unitDen * unitDen) := by decide
  have hends : roundUnits ((unitDen - 1023) * unitDen) (unitDen * unitDen) = unitDen ∧
      roundUnits ((unitDen + 1023) * unitDen) (unitDen * unitDen) = unitDen := by decide +kernel
  have hunits : roundUnits n (unitDen * unitDen) = unitDen :=
    le_antisymm ((roundUnits_mono hd hhi hrange).trans_eq hends.2)
      (hends.1.symm.trans_le (roundUnits_mono hd hlo (hhi.trans_lt hrange)))
  have hpos : n ≠ 0 := by
    unfold unitDen at hlo
    omega
  have hval : valueUnits 0x3C00#16 = unitDen := by decide
  refine (half_ext_value (by decide) ?_).symm
  rw [hval, (hasUnits_roundH false hpos hd (hhi.trans_lt hrange)).valueUnits_eq, hunits]

section
variable {a x c : Half} (hx : expOf x = 0)
include hx

/-- A multiply-add of a tiny argument does not overflow from coefficients of magnitude up to 1. -/
theorem isFinite_fma_of_expOf_zero (ha : isFinite a = true) (hc : isFinite c = true) (ha1 : magUnits a ≤ unitDen)
    (hc1 : magUnits c ≤ unitDen) : isFinite (fma a x c) = true := by
  have hfin := isFinite_of_expOf_zero hx
  by_cases hexact : fmaExact a x c = 0
  · rw [fma_of_fmaExact_eq_zero ha hfin hc hexact]
    split <;> decide
  · have hle : (fmaExact a x c).natAbs ≤ unitDen * 1024 + unitDen * unitDen :=
      calc (fmaExact a x c).natAbs ≤ magUnits a * magUnits x + magUnits c * unitDen := by
            rw [fmaExact, ← natAbs_valueUnits_mul, ← natAbs_valueUnits c, ← Int.natAbs_natCast unitDen,
              ← Int.natAbs_mul, Int.natAbs_natCast]
            exact Int.natAbs_add_le _ _
        _ ≤ _ := Nat.add_le_add (Nat.mul_le_mul ha1 (magUnits_lt_of_expOf_zero hx).le) (Nat.mul_le_mul_right _ hc1)
    rw [fma_of_isFinite ha hfin hc hexact]
    exact isFinite_roundH false hexact (Nat.mul_pos unitDen_pos unitDen_pos) (hle.trans_lt (by decide))

/-- 1 + x rounds to 1 for a zero or subnormal x. -/
theorem fma_one_of_expOf_zero : fma 0x3C00#16 x 0x3C00#16 = 0x3C00#16 := by
  have hone : isFinite 0x3C00#16 = true := by decide
  obtain ⟨n, hn, hlo, hhi⟩ : ∃ n : Nat, fmaExact 0x3C00#16 x 0x3C00#16 = n ∧
      (unitDen - 1023) * unitDen ≤ n ∧ n ≤ (unitDen + 1023) * unitDen := by
    have hval : valueUnits 0x3C00#16 = unitDen := by decide
    have hmag := magUnits_lt_of_expOf_zero hx
    have habs := natAbs_valueUnits x
    rw [fmaExact, hval, unitDen]
    exact ⟨((valueUnits x + 2 ^ 24) * 2 ^ 24).toNat, by omega⟩
  rw [fma_of_isFinite hone (isFinite_of_expOf_zero hx) hone (by unfold unitDen at hlo; omega), hn]
  exact roundH_of_near_one hlo hhi

/-- Over zeros and subnormals a polynomial with c[0] = c[4] = 1 and no coefficient above 1 is 1: the powers of x are zeros,
and its lower half starts with 1 + x. -/
theorem estrin_of_expOf_zero {coef : Lane → Half} (hfin : ∀ k, isFinite (coef k) = true)
    (hle : ∀ k, magUnits (coef k) ≤ unitDen) (h0 : coef 0 = 0x3C00#16) (h4 : coef 4 = 0x3C00#16) :
    estrin x coef = 0x3C00#16 := by
  have hone : isFinite 0x3C00#16 = true := by decide
  have hx2 := isZero_fmul_self_of_expOf_zero hx
  have hnode (j k : Lane) : isFinite (fma (coef j) x (coef k)) = true :=
    isFinite_fma_of_expOf_zero hx (hfin j) (hfin k) (hle j) (hle k)
  have hlow : estrinHalf x (coef 0) (coef 4) (coef 2) (coef 6) = 0x3C00#16 := by
    rw [estrinHalf, h0, h4, fma_one_of_expOf_zero hx]
    exact fma_of_zero_factor (hnode 6 2) hx2 hone (by decide)
  have hhigh : isFinite (estrinHalf x (coef 1) (coef 5) (coef 3) (coef 7)) = true :=
    isFinite_fma_of_zero_factor (hnode 7 3) hx2 (hnode 5 1)
  rw [estrin_eq_halves, hlow]
  exact fma_of_zero_factor hhigh (isZero_fmul_of_isZero hx2 hx2) hone (by decide)

end

/-- Settles O28: a NaN passes through every step; a zero or subnormal has m = 0 and a reduced argument of its own kind, on
which the default table gives 1. -/
theorem expOfNaNAndOfTinyInputs : Obligations.ExpOfNaNAndOfTinyInputs := by
  refine ⟨fun _ c hx => expCore_of_isNaN c hx, fun x hx => ?_⟩
  have hm := expQuotient_of_expOf_zero hx
  refine ⟨hm, ?_⟩
  have hpoly := estrin_of_expOf_zero (expOf_expReduced_of_expOf_zero hx)
    (coef := fun k => expCoefDefault.get k) (by decide) (by decide) rfl rfl
  rw [expCore_of_not_belowGuard _ (by rw [hm]; decide), hm, hpoly]
  decide

end Sys2Proof.Machine

/-! SUPPORT. The fault record (R201, R230, R231): what writes it, and that no move reads it (R235, R236). -/

namespace Sys2Proof.Machine

/-! What a recorded step leaves in the fault record (R201, R231). -/

theorem step_read_of_no_value {s : State} {port : OutPort} {rest : List HostMove}
    (hp : s.pending = .read port :: rest) (hv : s.output port = none) :
    step s = .fault (.readBeforeFirstCommand port) := by
  rw [step_read hp, readOutput, hv]

/-- A step that completes and is no reset keeps the fault record. -/
theorem step_next_faultRecord {s t : State} (hr : ∀ rest, s.pending ≠ .reset :: rest) (h : step s = .next t) :
    t.faultRecord = s.faultRecord := by
  obtain ⟨-, rfl⟩ | ⟨p, rest, w, i, -, -, -, -, he⟩ | ⟨port, rest, v, -, -, rfl⟩ | ⟨rest, hp, -⟩ := step_next_cases h
  · rfl
  · obtain ⟨a, b, yv, nv, d, -, -, rfl⟩ := exec_next he
    rfl
  · rfl
  · exact absurd hp (hr rest)

/-- Settles O47: a recorded step by its outcome, of which only a fault writes the record, and only an empty one. -/
theorem recordedFaultIsNeverCleared : Obligations.RecordedFaultIsNeverCleared := by
  refine ⟨fun s port rest hp hv => ?_, fun s f hf hr => ?_, fun s rest hp => ?_⟩
  · simp [stepRecorded_fault (step_read_of_no_value hp hv)]
  · cases h : step s with
    | next t => rw [stepRecorded_next h, step_next_faultRecord hr h, hf]
    | fault f' => simp [stepRecorded_fault h, hf]
    | refused r => simp [stepRecorded_refused h, hf]
  · simp [stepRecorded_next (step_reset hp)]

/-! Two states that differ in the fault record alone (R235, R236). -/

/-- `s` with `r` in its fault record. -/
def State.withFaultRecord (s : State) (r : Option Fault) : State := { s with faultRecord := r }

/-- An outcome with `r` in the fault record of its next state, where it has one. -/
def outcomeWithFaultRecord (r : Option Fault) :
    Host.Outcome State Fault Refusal → Host.Outcome State Fault Refusal
  | .next t => .next (t.withFaultRecord r)
  | .fault f => .fault f
  | .refused e => .refused e

section
variable (s : State) (r : Option Fault)

@[simp] theorem State.withFaultRecord_ports : (s.withFaultRecord r).ports = s.ports := rfl
@[simp] theorem State.withFaultRecord_refusalMark : (s.withFaultRecord r).refusalMark = s.refusalMark := rfl

@[simp] theorem State.withFaultRecord_output (port : OutPort) :
    (s.withFaultRecord r).output port = s.output port := by
  cases port <;> rfl

@[simp] theorem State.sample_withFaultRecord (p : Presentation) :
    (s.withFaultRecord r).sample p = (s.sample p).withFaultRecord r := rfl

@[simp] theorem State.assertReset_withFaultRecord : (s.withFaultRecord r).assertReset = s.assertReset := rfl

@[simp] theorem outcomeWithFaultRecord_next :
    outcomeWithFaultRecord r (.next s) = .next (s.withFaultRecord r) := rfl

@[simp] theorem outcomeWithFaultRecord_fault (f : Fault) : outcomeWithFaultRecord r (.fault f) = .fault f := rfl

@[simp] theorem outcomeWithFaultRecord_refused (e : Refusal) : outcomeWithFaultRecord r (.refused e) = .refused e := rfl

/-- A command on operands whose result does not depend on the fault record hands the record on. -/
theorem withOperands_withFaultRecord {f g : Vec → Vec → State} (hfg : ∀ a b, g a b = (f a b).withFaultRecord r) :
    withOperands (s.withFaultRecord r) g = outcomeWithFaultRecord r (withOperands s f) := by
  obtain rfl : g = fun a b => (f a b).withFaultRecord r := funext₂ hfg
  cases ha : s.ports.a with
  | none => simp [withOperands, ha]
  | some a => cases hb : s.ports.b <;> simp [withOperands, ha, hb]

/-- No command reads the fault record or writes it (R201). -/
theorem exec_withFaultRecord (i : Instr) :
    exec i (s.withFaultRecord r) = outcomeWithFaultRecord r (exec i s) := by
  cases i <;> exact withOperands_withFaultRecord s r fun _ _ => rfl

theorem presentCommand_withFaultRecord (p : Presentation) :
    presentCommand (s.withFaultRecord r) p = outcomeWithFaultRecord r (presentCommand s p) := by
  cases hm : s.refusalMark with
  | true => simp [presentCommand, hm]
  | false =>
    cases hc : p.cmd with
    | none => simp [presentCommand, hm, hc]
    | some w => cases hd : decode w <;> simp [presentCommand, hm, hc, hd, exec_withFaultRecord]

theorem readOutput_withFaultRecord (port : OutPort) :
    readOutput (s.withFaultRecord r) port = outcomeWithFaultRecord r (readOutput s port) := by
  rw [readOutput, readOutput, State.withFaultRecord_output]
  cases s.output port <;> rfl

/-- A step that is no reset hands the fault record on and is otherwise the same (R235, R236). -/
theorem step_withFaultRecord (hr : ∀ rest, s.pending ≠ .reset :: rest) :
    step (s.withFaultRecord r) = outcomeWithFaultRecord r (step s) := by
  cases hp : s.pending with
  | nil => rw [step_idle hp, step_idle (s := s.withFaultRecord r) hp]; rfl
  | cons m rest =>
    rw [step_move hp, step_move (s := s.withFaultRecord r) hp]
    cases m with
    | command p => exact presentCommand_withFaultRecord s r p
    | read port => exact readOutput_withFaultRecord s r port
    | reset => exact absurd hp (hr rest)

/-- A reset gives the same state whatever the fault record held (R230). -/
theorem step_withFaultRecord_reset {rest : List HostMove} (hp : s.pending = .reset :: rest) :
    step (s.withFaultRecord r) = step s := by
  rw [step_reset hp, step_reset (s := s.withFaultRecord r) hp, State.assertReset_withFaultRecord]

end

/-- Settles O48: a reset empties the record, and every other move hands it on. -/
theorem faultRecordHindersNoMove : Obligations.FaultRecordHindersNoMove := by
  intro s r
  by_cases hreset : ∃ rest, s.pending = .reset :: rest
  · obtain ⟨rest, hp⟩ := hreset
    have hstep : step { s with faultRecord := r } = step s := step_withFaultRecord_reset s r hp
    rw [hstep]
    exact ⟨fun t h => ⟨t.faultRecord, h, fun hr => absurd hp (hr rest)⟩, fun _ => id, fun _ => id⟩
  · have hr := not_exists.1 hreset
    have hstep : step { s with faultRecord := r } = outcomeWithFaultRecord r (step s) := step_withFaultRecord s r hr
    rw [hstep]
    exact ⟨fun t h => ⟨r, by rw [h]; rfl, fun _ => rfl⟩, fun f h => by rw [h, outcomeWithFaultRecord_fault],
      fun e h => by rw [h, outcomeWithFaultRecord_refused]⟩

end Sys2Proof.Machine

/-! SUPPORT. The output ports between accepted commands (R231), and what a reset move leaves (R230, R235). -/

namespace Sys2Proof.Machine

/-! Y and N over the kinds of step (R231, R235). -/

theorem step_read_of_value {s : State} {port : OutPort} {rest : List HostMove} {v : Vec}
    (hp : s.pending = .read port :: rest) (hv : s.output port = some v) :
    step s = .next { s with lastRead := some (port, v), pending := rest } := by
  rw [step_read hp, readOutput, hv]
  simp [State.giveHost, State.dropMove, hp]

/-- Only an accepted command and a reset write Y and N: an idle step, a read, a fault and a refusal keep them. -/
theorem stepRecorded_keeps_outputs {s : State}
    (hc : ∀ p rest, s.pending = .command p :: rest → ∃ r, step s = .refused r)
    (hr : ∀ rest, s.pending ≠ .reset :: rest) : (stepRecorded s).y = s.y ∧ (stepRecorded s).n = s.n := by
  cases h : step s with
  | fault f => rw [stepRecorded_fault h]; exact ⟨rfl, rfl⟩
  | refused r => rw [stepRecorded_refused h]; exact ⟨rfl, rfl⟩
  | next t =>
    rw [stepRecorded_next h]
    obtain ⟨-, rfl⟩ | ⟨p, rest, w, i, hp, -, -, -, -⟩ | ⟨port, rest, v, -, -, rfl⟩ | ⟨rest, hp, -⟩ := step_next_cases h
    · exact ⟨rfl, rfl⟩
    · obtain ⟨r, hrefused⟩ := hc p rest hp
      cases h.symm.trans hrefused
    · exact ⟨rfl, rfl⟩
    · exact absurd hp (hr rest)

/-- A command that completes leaves values in Y and N (R42). -/
theorem exec_writes_outputs {i : Instr} {s t : State} (h : exec i s = .next t) :
    ∃ yv nv, t.y = some yv ∧ t.n = some nv := by
  obtain ⟨a, b, yv, nv, d, -, -, rfl⟩ := exec_next h
  exact ⟨yv, nv, rfl, rfl⟩

/-- An accepted command completes with what exec of it on the sampled ports answers (R64). -/
theorem step_accepted {s : State} {p : Presentation} {rest : List HostMove} (hm : s.notRefused)
    (hp : s.pending = .command p :: rest) (hacc : Claims.accepted p) :
    ∃ i t, p.cmd = some (encode i) ∧ exec i (s.sample p) = .next t ∧ step s = .next t := by
  obtain ⟨w, i, a, b, hd, rfl⟩ := (accepted_iff p).1 hacc
  obtain ⟨t, hstep, hexec, -, -⟩ := step_command_whole hm hp hd
  exact ⟨i, t, by rw [encode_of_decode hd], hexec, hstep⟩

/-- Settles O46: a read by the port's value, a step that accepts no command by its outcome, and an accepted command by
its exec. -/
theorem outputsHoldUntilTheNextAcceptedCommand : Obligations.OutputsHoldUntilTheNextAcceptedCommand := by
  refine ⟨⟨rfl, rfl⟩, fun s port rest hp => ⟨step_read_of_no_value hp, fun v => step_read_of_value hp⟩,
    fun s => stepRecorded_keeps_outputs, fun s p rest hm hp hacc => ?_⟩
  obtain ⟨i, t, hcmd, hexec, hstep⟩ := step_accepted hm hp hacc
  obtain ⟨yv, nv, hy, hn⟩ := exec_writes_outputs hexec
  rw [State.sample_eq hp] at hexec
  exact ⟨i, t, yv, nv, hcmd, hexec, hstep, hy, hn⟩

/-! The reset move (R230, R235). -/

theorem State.dropMove_assertReset_eq {s : State} {m : HostMove} {rest : List HostMove} (hp : s.pending = m :: rest) :
    s.assertReset.dropMove = { s with ports := Presentation.nothing, y := none, n := none, refusalMark := false,
                                      faultRecord := none, pending := rest } := by
  simp [State.dropMove, State.assertReset, hp]

/-- Settles O49: with the mark clear after the reset, the accepted command completes. -/
theorem resetMoveClearsOutputsAndMark : Obligations.ResetMoveClearsOutputsAndMark := by
  intro s rest hp
  refine ⟨_, step_reset hp, State.dropMove_assertReset_eq hp, fun p rest' hrest hacc => ?_⟩
  have hpending : s.assertReset.dropMove.pending = .command p :: rest' := by
    rw [State.dropMove_assertReset_eq hp, hrest]
  obtain ⟨i, u, -, -, hstep⟩ := step_accepted (s := s.assertReset.dropMove) rfl hpending hacc
  exact ⟨u, hstep⟩

end Sys2Proof.Machine
